-- ==== Sys2Proof/Word.lean ====
section
/-! DEFINITION. The widths the spec names (10_state.md R20, R30; 20_memory.md R61; 30_encoding.md R101).

Registers, the program counter and addresses are 64-bit words, memory is made of bytes, an instruction is a
32-bit word, and roots, leaves, hashes and the pre-image key are 32-byte strings. -/

namespace Sys2Proof

/-- A 64-bit value, register or address (00_scope.md R10). -/
abbrev Word := BitVec 64

/-- One byte of memory, of calldata or of the state record. -/
abbrev Byte := BitVec 8

/-- A 5-bit register number (30_encoding.md R101). -/
abbrev Reg := BitVec 5

/-- A 32-byte string. Byte 0 is the MOST significant byte of the bit vector, so that a literal reads like the
hexadecimal strings of the spec and `a ++ b` is the spec's `a ‖ b` (00_scope.md R10). -/
abbrev Bytes32 := BitVec 256

end Sys2Proof
end

