-- ==== Sys2Proof/Syntax.lean ====
section
/-! DEFINITION. The instructions: one constructor per row of spec/opcode_table.json, in the table's order.

A constructor keeps EVERY bit of the 32-bit word that its row leaves open, also the bits the hardware ignores
(R112: `rd` and `rs1` of ECALL, `funct3` of JALR, `aq`, `rl` and LR's `rs2`, all fields of FENCE), so that an
instruction and its word determine each other. Immediates stand as the raw bits of 30_encoding.md R102 to R107;
the two immediates whose bit 0 is always 0 (R104, R106) keep that bit, and `WellFormed` asks that it is 0. -/

namespace Sys2Proof

/-- The instruction set of R2 and R108, with the catch-all rows of R111 and R112 (`rsv…`) and the default row of
R109 (`rsvUnknown`). -/
inductive Instr where
  /-- LB (R141). -/
  | lb (rd rs1 : Reg) (imm : BitVec 12)
  /-- LH (R142). -/
  | lh (rd rs1 : Reg) (imm : BitVec 12)
  /-- LW (R143). -/
  | lw (rd rs1 : Reg) (imm : BitVec 12)
  /-- LD (R144). -/
  | ld (rd rs1 : Reg) (imm : BitVec 12)
  /-- LBU (R145). -/
  | lbu (rd rs1 : Reg) (imm : BitVec 12)
  /-- LHU (R146). -/
  | lhu (rd rs1 : Reg) (imm : BitVec 12)
  /-- LWU (R147). -/
  | lwu (rd rs1 : Reg) (imm : BitVec 12)
  /-- SB (R151). -/
  | sb (rs1 rs2 : Reg) (imm : BitVec 12)
  /-- SH (R152). -/
  | sh (rs1 rs2 : Reg) (imm : BitVec 12)
  /-- SW (R153). -/
  | sw (rs1 rs2 : Reg) (imm : BitVec 12)
  /-- SD (R154). -/
  | sd (rs1 rs2 : Reg) (imm : BitVec 12)
  /-- BEQ (R161). -/
  | beq (rs1 rs2 : Reg) (imm : BitVec 13)
  /-- BNE (R162). -/
  | bne (rs1 rs2 : Reg) (imm : BitVec 13)
  /-- BLT (R163). -/
  | blt (rs1 rs2 : Reg) (imm : BitVec 13)
  /-- BGE (R164). -/
  | bge (rs1 rs2 : Reg) (imm : BitVec 13)
  /-- BLTU (R165). -/
  | bltu (rs1 rs2 : Reg) (imm : BitVec 13)
  /-- BGEU (R166). -/
  | bgeu (rs1 rs2 : Reg) (imm : BitVec 13)
  /-- ADDI (R171). -/
  | addi (rd rs1 : Reg) (imm : BitVec 12)
  /-- SLTI (R172). -/
  | slti (rd rs1 : Reg) (imm : BitVec 12)
  /-- SLTIU (R173). -/
  | sltiu (rd rs1 : Reg) (imm : BitVec 12)
  /-- XORI (R174). -/
  | xori (rd rs1 : Reg) (imm : BitVec 12)
  /-- ORI (R175). -/
  | ori (rd rs1 : Reg) (imm : BitVec 12)
  /-- ANDI (R176). -/
  | andi (rd rs1 : Reg) (imm : BitVec 12)
  /-- SLLI (R177). -/
  | slli (rd rs1 : Reg) (shamt : BitVec 6)
  /-- SRLI (R178). -/
  | srli (rd rs1 : Reg) (shamt : BitVec 6)
  /-- SRAI (R179). -/
  | srai (rd rs1 : Reg) (shamt : BitVec 6)
  /-- ADDIW (R181). -/
  | addiw (rd rs1 : Reg) (imm : BitVec 12)
  /-- SLLIW (R182). -/
  | slliw (rd rs1 : Reg) (shamt : BitVec 5)
  /-- SRLIW (R183). -/
  | srliw (rd rs1 : Reg) (shamt : BitVec 5)
  /-- SRAIW (R184). -/
  | sraiw (rd rs1 : Reg) (shamt : BitVec 5)
  /-- ADD (R191). -/
  | add (rd rs1 rs2 : Reg)
  /-- SUB (R192). -/
  | sub (rd rs1 rs2 : Reg)
  /-- SLL (R193). -/
  | sll (rd rs1 rs2 : Reg)
  /-- SLT (R194). -/
  | slt (rd rs1 rs2 : Reg)
  /-- SLTU (R195). -/
  | sltu (rd rs1 rs2 : Reg)
  /-- XOR (R196). -/
  | xor (rd rs1 rs2 : Reg)
  /-- SRL (R197). -/
  | srl (rd rs1 rs2 : Reg)
  /-- SRA (R198). -/
  | sra (rd rs1 rs2 : Reg)
  /-- OR (R199). -/
  | or (rd rs1 rs2 : Reg)
  /-- AND (R200). -/
  | and (rd rs1 rs2 : Reg)
  /-- MUL (R211). -/
  | mul (rd rs1 rs2 : Reg)
  /-- MULH (R212). -/
  | mulh (rd rs1 rs2 : Reg)
  /-- MULHSU (R213). -/
  | mulhsu (rd rs1 rs2 : Reg)
  /-- MULHU (R214). -/
  | mulhu (rd rs1 rs2 : Reg)
  /-- DIV (R215). -/
  | div (rd rs1 rs2 : Reg)
  /-- DIVU (R216). -/
  | divu (rd rs1 rs2 : Reg)
  /-- REM (R217). -/
  | rem (rd rs1 rs2 : Reg)
  /-- REMU (R218). -/
  | remu (rd rs1 rs2 : Reg)
  /-- ADDW (R202). -/
  | addw (rd rs1 rs2 : Reg)
  /-- SUBW (R203). -/
  | subw (rd rs1 rs2 : Reg)
  /-- SLLW (R204). -/
  | sllw (rd rs1 rs2 : Reg)
  /-- SRLW (R205). -/
  | srlw (rd rs1 rs2 : Reg)
  /-- SRAW (R206). -/
  | sraw (rd rs1 rs2 : Reg)
  /-- MULW (R220). -/
  | mulw (rd rs1 rs2 : Reg)
  /-- DIVW (R221). -/
  | divw (rd rs1 rs2 : Reg)
  /-- DIVUW (R222). -/
  | divuw (rd rs1 rs2 : Reg)
  /-- REMW (R223). -/
  | remw (rd rs1 rs2 : Reg)
  /-- REMUW (R224). -/
  | remuw (rd rs1 rs2 : Reg)
  /-- LUI (R230). -/
  | lui (rd : Reg) (imm : BitVec 20)
  /-- AUIPC (R231). -/
  | auipc (rd : Reg) (imm : BitVec 20)
  /-- JAL (R232). -/
  | jal (rd : Reg) (imm : BitVec 21)
  /-- JALR (R233). -/
  | jalr (f3 : BitVec 3) (rd rs1 : Reg) (imm : BitVec 12)
  /-- ECALL (R241). -/
  | ecall (rd rs1 : Reg)
  /-- EBREAK (R243). -/
  | ebreak (rd rs1 : Reg)
  /-- CSRRW (R246). -/
  | csrrw (rd rs1 : Reg) (csr : BitVec 12)
  /-- CSRRS (R247). -/
  | csrrs (rd rs1 : Reg) (csr : BitVec 12)
  /-- CSRRC (R248). -/
  | csrrc (rd rs1 : Reg) (csr : BitVec 12)
  /-- CSRRWI (R249). -/
  | csrrwi (rd : Reg) (uimm : BitVec 5) (csr : BitVec 12)
  /-- CSRRSI (R250). -/
  | csrrsi (rd : Reg) (uimm : BitVec 5) (csr : BitVec 12)
  /-- CSRRCI (R251). -/
  | csrrci (rd : Reg) (uimm : BitVec 5) (csr : BitVec 12)
  /-- LR.W (R303). -/
  | lrW (rd rs1 rs2 : Reg) (aq rl : BitVec 1)
  /-- LR.D (R304). -/
  | lrD (rd rs1 rs2 : Reg) (aq rl : BitVec 1)
  /-- SC.W (R305). -/
  | scW (rd rs1 rs2 : Reg) (aq rl : BitVec 1)
  /-- SC.D (R306). -/
  | scD (rd rs1 rs2 : Reg) (aq rl : BitVec 1)
  /-- AMOSWAP.W (R308). -/
  | amoswapW (rd rs1 rs2 : Reg) (aq rl : BitVec 1)
  /-- AMOADD.W (R309). -/
  | amoaddW (rd rs1 rs2 : Reg) (aq rl : BitVec 1)
  /-- AMOXOR.W (R310). -/
  | amoxorW (rd rs1 rs2 : Reg) (aq rl : BitVec 1)
  /-- AMOAND.W (R311). -/
  | amoandW (rd rs1 rs2 : Reg) (aq rl : BitVec 1)
  /-- AMOOR.W (R312). -/
  | amoorW (rd rs1 rs2 : Reg) (aq rl : BitVec 1)
  /-- AMOMIN.W (R313). -/
  | amominW (rd rs1 rs2 : Reg) (aq rl : BitVec 1)
  /-- AMOMAX.W (R314). -/
  | amomaxW (rd rs1 rs2 : Reg) (aq rl : BitVec 1)
  /-- AMOMINU.W (R315). -/
  | amominuW (rd rs1 rs2 : Reg) (aq rl : BitVec 1)
  /-- AMOMAXU.W (R316). -/
  | amomaxuW (rd rs1 rs2 : Reg) (aq rl : BitVec 1)
  /-- AMOSWAP.D (R317). -/
  | amoswapD (rd rs1 rs2 : Reg) (aq rl : BitVec 1)
  /-- AMOADD.D (R318). -/
  | amoaddD (rd rs1 rs2 : Reg) (aq rl : BitVec 1)
  /-- AMOXOR.D (R319). -/
  | amoxorD (rd rs1 rs2 : Reg) (aq rl : BitVec 1)
  /-- AMOAND.D (R320). -/
  | amoandD (rd rs1 rs2 : Reg) (aq rl : BitVec 1)
  /-- AMOOR.D (R321). -/
  | amoorD (rd rs1 rs2 : Reg) (aq rl : BitVec 1)
  /-- AMOMIN.D (R322). -/
  | amominD (rd rs1 rs2 : Reg) (aq rl : BitVec 1)
  /-- AMOMAX.D (R323). -/
  | amomaxD (rd rs1 rs2 : Reg) (aq rl : BitVec 1)
  /-- AMOMINU.D (R324). -/
  | amominuD (rd rs1 rs2 : Reg) (aq rl : BitVec 1)
  /-- AMOMAXU.D (R325). -/
  | amomaxuD (rd rs1 rs2 : Reg) (aq rl : BitVec 1)
  /-- FENCE (R331). -/
  | fence (rd rs1 : Reg) (imm : BitVec 12)
  /-- FENCE.I (R332). -/
  | fenceI (rd rs1 : Reg) (imm : BitVec 12)
  /-- FP-LOAD (R333). -/
  | fpLoad (rest : BitVec 25)
  /-- FP-STORE (R334). -/
  | fpStore (rest : BitVec 25)
  /-- FP-OP (R335). -/
  | fpOp (rest : BitVec 25)
  /-- rsv.load7 (R148). -/
  | rsvLoad7 (rd rs1 : Reg) (imm : BitVec 12)
  /-- rsv.store (R155). -/
  | rsvStore (f3 : BitVec 3) (rs1 rs2 : Reg) (imm : BitVec 12)
  /-- rsv.branch (R167). -/
  | rsvBranch (f3 : BitVec 3) (rs1 rs2 : Reg) (imm : BitVec 13)
  /-- rsv.opimm (R185). -/
  | rsvOpImm (f6 : BitVec 6) (f3 : BitVec 3) (rd rs1 : Reg) (shamt : BitVec 6)
  /-- rsv.opimm32 (R186). -/
  | rsvOpImm32 (f7 : BitVec 7) (f3 : BitVec 3) (rd rs1 : Reg) (shamt : BitVec 5)
  /-- rsv.op (R207). -/
  | rsvOp (f7 : BitVec 7) (f3 : BitVec 3) (rd rs1 rs2 : Reg)
  /-- rsv.op32 (R208). -/
  | rsvOp32 (f7 : BitVec 7) (f3 : BitVec 3) (rd rs1 rs2 : Reg)
  /-- rsv.system0 (R243). -/
  | rsvSystem0 (rd rs1 : Reg) (imm : BitVec 12)
  /-- rsv.system4 (R252). -/
  | rsvSystem4 (rd rs1 : Reg) (imm : BitVec 12)
  /-- rsv.amo.size (R301). -/
  | rsvAmoSize (op : BitVec 5) (f3 : BitVec 3) (rd rs1 rs2 : Reg) (aq rl : BitVec 1)
  /-- rsv.amo.width (R326). -/
  | rsvAmoWidth (op : BitVec 5) (f3 : BitVec 3) (rd rs1 rs2 : Reg) (aq rl : BitVec 1)
  /-- rsv.amo.op (R301). -/
  | rsvAmoOp (op : BitVec 5) (f3 : BitVec 3) (rd rs1 rs2 : Reg) (aq rl : BitVec 1)
  /-- rsv.miscmem (R336). -/
  | rsvMiscmem (f3 : BitVec 3) (rd rs1 : Reg) (imm : BitVec 12)
  /-- rsv.unknown (R109). -/
  | rsvUnknown (word : BitVec 32)
  deriving DecidableEq, Repr

end Sys2Proof
end

