-- ==== Sys2Proof/WellFormed.lean ====
section
/-! DEFINITION. Which instruction terms stand for a 32-bit word of their own row. A term of a catch-all row is well
formed only with field values that no listed instruction takes (30_encoding.md R111, R112, R109). -/

namespace Sys2Proof

/-- The eleven atomic `op` codes (48_atomics.md R300). -/
def amoOps : List (BitVec 5) := [0x02, 0x03, 0x00, 0x01, 0x04, 0x08, 0x0C, 0x10, 0x14, 0x18, 0x1C]

/-- The 17 handled opcodes (R109). -/
def handledOpcodes : List (BitVec 7) :=
  [0x03, 0x07, 0x0F, 0x13, 0x17, 0x1B, 0x23, 0x27, 0x2F, 0x33, 0x37, 0x3B, 0x53, 0x63, 0x67, 0x6F, 0x73]

/-- Well-formedness: branch and jump offsets are even (R104, R106); a catch-all term takes only the values its
row's rule names. -/
def WellFormed : Instr → Bool
  | .lb _ _ _ => true
  | .lh _ _ _ => true
  | .lw _ _ _ => true
  | .ld _ _ _ => true
  | .lbu _ _ _ => true
  | .lhu _ _ _ => true
  | .lwu _ _ _ => true
  | .sb _ _ _ => true
  | .sh _ _ _ => true
  | .sw _ _ _ => true
  | .sd _ _ _ => true
  | .beq _ _ imm => imm.getLsbD 0 == false
  | .bne _ _ imm => imm.getLsbD 0 == false
  | .blt _ _ imm => imm.getLsbD 0 == false
  | .bge _ _ imm => imm.getLsbD 0 == false
  | .bltu _ _ imm => imm.getLsbD 0 == false
  | .bgeu _ _ imm => imm.getLsbD 0 == false
  | .addi _ _ _ => true
  | .slti _ _ _ => true
  | .sltiu _ _ _ => true
  | .xori _ _ _ => true
  | .ori _ _ _ => true
  | .andi _ _ _ => true
  | .slli _ _ _ => true
  | .srli _ _ _ => true
  | .srai _ _ _ => true
  | .addiw _ _ _ => true
  | .slliw _ _ _ => true
  | .srliw _ _ _ => true
  | .sraiw _ _ _ => true
  | .add _ _ _ => true
  | .sub _ _ _ => true
  | .sll _ _ _ => true
  | .slt _ _ _ => true
  | .sltu _ _ _ => true
  | .xor _ _ _ => true
  | .srl _ _ _ => true
  | .sra _ _ _ => true
  | .or _ _ _ => true
  | .and _ _ _ => true
  | .mul _ _ _ => true
  | .mulh _ _ _ => true
  | .mulhsu _ _ _ => true
  | .mulhu _ _ _ => true
  | .div _ _ _ => true
  | .divu _ _ _ => true
  | .rem _ _ _ => true
  | .remu _ _ _ => true
  | .addw _ _ _ => true
  | .subw _ _ _ => true
  | .sllw _ _ _ => true
  | .srlw _ _ _ => true
  | .sraw _ _ _ => true
  | .mulw _ _ _ => true
  | .divw _ _ _ => true
  | .divuw _ _ _ => true
  | .remw _ _ _ => true
  | .remuw _ _ _ => true
  | .lui _ _ => true
  | .auipc _ _ => true
  | .jal _ imm => imm.getLsbD 0 == false
  | .jalr _ _ _ _ => true
  | .ecall _ _ => true
  | .ebreak _ _ => true
  | .csrrw _ _ _ => true
  | .csrrs _ _ _ => true
  | .csrrc _ _ _ => true
  | .csrrwi _ _ _ => true
  | .csrrsi _ _ _ => true
  | .csrrci _ _ _ => true
  | .lrW _ _ _ _ _ => true
  | .lrD _ _ _ _ _ => true
  | .scW _ _ _ _ _ => true
  | .scD _ _ _ _ _ => true
  | .amoswapW _ _ _ _ _ => true
  | .amoaddW _ _ _ _ _ => true
  | .amoxorW _ _ _ _ _ => true
  | .amoandW _ _ _ _ _ => true
  | .amoorW _ _ _ _ _ => true
  | .amominW _ _ _ _ _ => true
  | .amomaxW _ _ _ _ _ => true
  | .amominuW _ _ _ _ _ => true
  | .amomaxuW _ _ _ _ _ => true
  | .amoswapD _ _ _ _ _ => true
  | .amoaddD _ _ _ _ _ => true
  | .amoxorD _ _ _ _ _ => true
  | .amoandD _ _ _ _ _ => true
  | .amoorD _ _ _ _ _ => true
  | .amominD _ _ _ _ _ => true
  | .amomaxD _ _ _ _ _ => true
  | .amominuD _ _ _ _ _ => true
  | .amomaxuD _ _ _ _ _ => true
  | .fence _ _ _ => true
  | .fenceI _ _ _ => true
  | .fpLoad _ => true
  | .fpStore _ => true
  | .fpOp _ => true
  | .rsvLoad7 _ _ _ => true
  | .rsvStore f3 _ _ _ => 4 ≤ f3.toNat
  | .rsvBranch f3 _ _ imm => (f3 == 2 || f3 == 3) && (imm.getLsbD 0 == false)
  | .rsvOpImm f6 f3 _ _ _ => (f3 == 1 && f6 != 0) || (f3 == 5 && f6 != 0 && f6 != 0x10)
  | .rsvOpImm32 f7 f3 _ _ _ => (f3 == 2 || f3 == 3 || f3 == 4 || f3 == 6 || f3 == 7) || (f3 == 1 && f7 != 0) ||
      (f3 == 5 && f7 != 0 && f7 != 0x20)
  | .rsvOp f7 f3 _ _ _ => (f7 != 0 && f7 != 1 && f7 != 0x20) || (f7 == 0x20 && f3 != 0 && f3 != 5)
  | .rsvOp32 f7 f3 _ _ _ => (f7 != 0 && f7 != 1 && f7 != 0x20) || (f7 == 0 && f3 != 0 && f3 != 1 && f3 != 5) ||
      (f7 == 0x20 && f3 != 0 && f3 != 5) || (f7 == 1 && (f3 == 1 || f3 == 2 || f3 == 3))
  | .rsvSystem0 _ _ imm => imm != 0 && imm != 1
  | .rsvSystem4 _ _ _ => true
  | .rsvAmoSize _ f3 _ _ _ _ _ => f3 == 0 || f3 == 1
  | .rsvAmoWidth _ f3 _ _ _ _ _ => 4 ≤ f3.toNat
  | .rsvAmoOp op f3 _ _ _ _ _ => (f3 == 2 || f3 == 3) && !amoOps.contains op
  | .rsvMiscmem f3 _ _ _ => f3 != 0 && f3 != 1
  | .rsvUnknown word => !handledOpcodes.contains (word.extractLsb' 0 7)

end Sys2Proof
end

