-- ==== Sys2Proof/Decode.lean ====
section
/-! DEFINITION. The decoder and, after it, the encoder (30_encoding.md). The decoder is total on words, because the
spec's table is (R119), and rejects a byte string that is too short by name. -/

namespace Sys2Proof

/-! ### Fields (R101, R110) and raw immediates (R102 to R107) -/

/-- `bits[6:0]`. -/
def opcodeOf (w : BitVec 32) : BitVec 7 := w.extractLsb' 0 7
/-- `bits[11:7]`. -/
def rdOf (w : BitVec 32) : Reg := w.extractLsb' 7 5
/-- `bits[14:12]`. -/
def funct3Of (w : BitVec 32) : BitVec 3 := w.extractLsb' 12 3
/-- `bits[19:15]`. -/
def rs1Of (w : BitVec 32) : Reg := w.extractLsb' 15 5
/-- `bits[24:20]`. -/
def rs2Of (w : BitVec 32) : Reg := w.extractLsb' 20 5
/-- `bits[31:25]`. -/
def funct7Of (w : BitVec 32) : BitVec 7 := w.extractLsb' 25 7
/-- `bits[31:26]`, the function code of the 64-bit shift immediates (R110). -/
def funct6Of (w : BitVec 32) : BitVec 6 := w.extractLsb' 26 6
/-- `bits[25:20]`, the 64-bit shift amount (R107). -/
def shamt6Of (w : BitVec 32) : BitVec 6 := w.extractLsb' 20 6
/-- `bits[31:27]`, the atomic operation (R300). -/
def amoOpOf (w : BitVec 32) : BitVec 5 := w.extractLsb' 27 5
/-- `bits[26]` (R327). -/
def aqOf (w : BitVec 32) : BitVec 1 := w.extractLsb' 26 1
/-- `bits[25]` (R327). -/
def rlOf (w : BitVec 32) : BitVec 1 := w.extractLsb' 25 1
/-- Everything above the opcode, for the rows that look at the opcode only (R119). -/
def restOf (w : BitVec 32) : BitVec 25 := w.extractLsb' 7 25
/-- `bits[31:20]`: the I-type immediate, the `imm12` of SYSTEM and the CSR number (R102, R107). -/
def immIOf (w : BitVec 32) : BitVec 12 := w.extractLsb' 20 12
/-- The S-type immediate (R103). -/
def immSOf (w : BitVec 32) : BitVec 12 := w.extractLsb' 25 7 ++ w.extractLsb' 7 5
/-- The B-type immediate, bit 0 always 0 (R104). -/
def immBOf (w : BitVec 32) : BitVec 13 :=
  w.extractLsb' 31 1 ++ w.extractLsb' 7 1 ++ w.extractLsb' 25 6 ++ w.extractLsb' 8 4 ++ 0#1
/-- `bits[31:12]`, the U-type immediate (R105). -/
def immUOf (w : BitVec 32) : BitVec 20 := w.extractLsb' 12 20
/-- The J-type immediate, bit 0 always 0 (R106). -/
def immJOf (w : BitVec 32) : BitVec 21 :=
  w.extractLsb' 31 1 ++ w.extractLsb' 12 8 ++ w.extractLsb' 20 1 ++ w.extractLsb' 21 10 ++ 0#1

/-! ### Dispatch (R108) -/

/-- Opcode `0x03` (R108, R140, R148). -/
def decodeLoad (w : BitVec 32) : Instr :=
  if funct3Of w = 0 then .lb (rdOf w) (rs1Of w) (immIOf w) else
  if funct3Of w = 1 then .lh (rdOf w) (rs1Of w) (immIOf w) else
  if funct3Of w = 2 then .lw (rdOf w) (rs1Of w) (immIOf w) else
  if funct3Of w = 3 then .ld (rdOf w) (rs1Of w) (immIOf w) else
  if funct3Of w = 4 then .lbu (rdOf w) (rs1Of w) (immIOf w) else
  if funct3Of w = 5 then .lhu (rdOf w) (rs1Of w) (immIOf w) else
  if funct3Of w = 6 then .lwu (rdOf w) (rs1Of w) (immIOf w) else
  .rsvLoad7 (rdOf w) (rs1Of w) (immIOf w)

/-- Opcode `0x23` (R108, R150, R155). -/
def decodeStore (w : BitVec 32) : Instr :=
  if funct3Of w = 0 then .sb (rs1Of w) (rs2Of w) (immSOf w) else
  if funct3Of w = 1 then .sh (rs1Of w) (rs2Of w) (immSOf w) else
  if funct3Of w = 2 then .sw (rs1Of w) (rs2Of w) (immSOf w) else
  if funct3Of w = 3 then .sd (rs1Of w) (rs2Of w) (immSOf w) else
  .rsvStore (funct3Of w) (rs1Of w) (rs2Of w) (immSOf w)

/-- Opcode `0x63` (R108, R160, R167). -/
def decodeBranch (w : BitVec 32) : Instr :=
  if funct3Of w = 0 then .beq (rs1Of w) (rs2Of w) (immBOf w) else
  if funct3Of w = 1 then .bne (rs1Of w) (rs2Of w) (immBOf w) else
  if funct3Of w = 4 then .blt (rs1Of w) (rs2Of w) (immBOf w) else
  if funct3Of w = 5 then .bge (rs1Of w) (rs2Of w) (immBOf w) else
  if funct3Of w = 6 then .bltu (rs1Of w) (rs2Of w) (immBOf w) else
  if funct3Of w = 7 then .bgeu (rs1Of w) (rs2Of w) (immBOf w) else
  .rsvBranch (funct3Of w) (rs1Of w) (rs2Of w) (immBOf w)

/-- Opcode `0x13` (R108, R170, R185). -/
def decodeOpImm (w : BitVec 32) : Instr :=
  if funct3Of w = 0 then .addi (rdOf w) (rs1Of w) (immIOf w) else
  if funct3Of w = 2 then .slti (rdOf w) (rs1Of w) (immIOf w) else
  if funct3Of w = 3 then .sltiu (rdOf w) (rs1Of w) (immIOf w) else
  if funct3Of w = 4 then .xori (rdOf w) (rs1Of w) (immIOf w) else
  if funct3Of w = 6 then .ori (rdOf w) (rs1Of w) (immIOf w) else
  if funct3Of w = 7 then .andi (rdOf w) (rs1Of w) (immIOf w) else
  if funct3Of w = 1 ∧ funct6Of w = 0x00 then .slli (rdOf w) (rs1Of w) (shamt6Of w) else
  if funct3Of w = 5 ∧ funct6Of w = 0x00 then .srli (rdOf w) (rs1Of w) (shamt6Of w) else
  if funct3Of w = 5 ∧ funct6Of w = 0x10 then .srai (rdOf w) (rs1Of w) (shamt6Of w) else
  .rsvOpImm (funct6Of w) (funct3Of w) (rdOf w) (rs1Of w) (shamt6Of w)

/-- Opcode `0x1B` (R108, R180, R186). -/
def decodeOpImm32 (w : BitVec 32) : Instr :=
  if funct3Of w = 0 then .addiw (rdOf w) (rs1Of w) (immIOf w) else
  if funct3Of w = 1 ∧ funct7Of w = 0x00 then .slliw (rdOf w) (rs1Of w) (rs2Of w) else
  if funct3Of w = 5 ∧ funct7Of w = 0x00 then .srliw (rdOf w) (rs1Of w) (rs2Of w) else
  if funct3Of w = 5 ∧ funct7Of w = 0x20 then .sraiw (rdOf w) (rs1Of w) (rs2Of w) else
  .rsvOpImm32 (funct7Of w) (funct3Of w) (rdOf w) (rs1Of w) (rs2Of w)

/-- Opcode `0x33` (R108, R190, R207, R210). -/
def decodeOp (w : BitVec 32) : Instr :=
  if funct7Of w = 0x00 ∧ funct3Of w = 0 then .add (rdOf w) (rs1Of w) (rs2Of w) else
  if funct7Of w = 0x20 ∧ funct3Of w = 0 then .sub (rdOf w) (rs1Of w) (rs2Of w) else
  if funct7Of w = 0x00 ∧ funct3Of w = 1 then .sll (rdOf w) (rs1Of w) (rs2Of w) else
  if funct7Of w = 0x00 ∧ funct3Of w = 2 then .slt (rdOf w) (rs1Of w) (rs2Of w) else
  if funct7Of w = 0x00 ∧ funct3Of w = 3 then .sltu (rdOf w) (rs1Of w) (rs2Of w) else
  if funct7Of w = 0x00 ∧ funct3Of w = 4 then .xor (rdOf w) (rs1Of w) (rs2Of w) else
  if funct7Of w = 0x00 ∧ funct3Of w = 5 then .srl (rdOf w) (rs1Of w) (rs2Of w) else
  if funct7Of w = 0x20 ∧ funct3Of w = 5 then .sra (rdOf w) (rs1Of w) (rs2Of w) else
  if funct7Of w = 0x00 ∧ funct3Of w = 6 then .or (rdOf w) (rs1Of w) (rs2Of w) else
  if funct7Of w = 0x00 ∧ funct3Of w = 7 then .and (rdOf w) (rs1Of w) (rs2Of w) else
  if funct7Of w = 0x01 ∧ funct3Of w = 0 then .mul (rdOf w) (rs1Of w) (rs2Of w) else
  if funct7Of w = 0x01 ∧ funct3Of w = 1 then .mulh (rdOf w) (rs1Of w) (rs2Of w) else
  if funct7Of w = 0x01 ∧ funct3Of w = 2 then .mulhsu (rdOf w) (rs1Of w) (rs2Of w) else
  if funct7Of w = 0x01 ∧ funct3Of w = 3 then .mulhu (rdOf w) (rs1Of w) (rs2Of w) else
  if funct7Of w = 0x01 ∧ funct3Of w = 4 then .div (rdOf w) (rs1Of w) (rs2Of w) else
  if funct7Of w = 0x01 ∧ funct3Of w = 5 then .divu (rdOf w) (rs1Of w) (rs2Of w) else
  if funct7Of w = 0x01 ∧ funct3Of w = 6 then .rem (rdOf w) (rs1Of w) (rs2Of w) else
  if funct7Of w = 0x01 ∧ funct3Of w = 7 then .remu (rdOf w) (rs1Of w) (rs2Of w) else
  .rsvOp (funct7Of w) (funct3Of w) (rdOf w) (rs1Of w) (rs2Of w)

/-- Opcode `0x3B` (R108, R201, R208, R210). -/
def decodeOp32 (w : BitVec 32) : Instr :=
  if funct7Of w = 0x00 ∧ funct3Of w = 0 then .addw (rdOf w) (rs1Of w) (rs2Of w) else
  if funct7Of w = 0x20 ∧ funct3Of w = 0 then .subw (rdOf w) (rs1Of w) (rs2Of w) else
  if funct7Of w = 0x00 ∧ funct3Of w = 1 then .sllw (rdOf w) (rs1Of w) (rs2Of w) else
  if funct7Of w = 0x00 ∧ funct3Of w = 5 then .srlw (rdOf w) (rs1Of w) (rs2Of w) else
  if funct7Of w = 0x20 ∧ funct3Of w = 5 then .sraw (rdOf w) (rs1Of w) (rs2Of w) else
  if funct7Of w = 0x01 ∧ funct3Of w = 0 then .mulw (rdOf w) (rs1Of w) (rs2Of w) else
  if funct7Of w = 0x01 ∧ funct3Of w = 4 then .divw (rdOf w) (rs1Of w) (rs2Of w) else
  if funct7Of w = 0x01 ∧ funct3Of w = 5 then .divuw (rdOf w) (rs1Of w) (rs2Of w) else
  if funct7Of w = 0x01 ∧ funct3Of w = 6 then .remw (rdOf w) (rs1Of w) (rs2Of w) else
  if funct7Of w = 0x01 ∧ funct3Of w = 7 then .remuw (rdOf w) (rs1Of w) (rs2Of w) else
  .rsvOp32 (funct7Of w) (funct3Of w) (rdOf w) (rs1Of w) (rs2Of w)

/-- Opcode `0x73` (R108, R240): with `funct3 = 0` the 12-bit immediate tells ECALL from EBREAK and the rest. -/
def decodeSystem (w : BitVec 32) : Instr :=
  if funct3Of w = 0 ∧ immIOf w = 0 then .ecall (rdOf w) (rs1Of w) else
  if funct3Of w = 0 ∧ immIOf w = 1 then .ebreak (rdOf w) (rs1Of w) else
  if funct3Of w = 0 then .rsvSystem0 (rdOf w) (rs1Of w) (immIOf w) else
  if funct3Of w = 1 then .csrrw (rdOf w) (rs1Of w) (immIOf w) else
  if funct3Of w = 2 then .csrrs (rdOf w) (rs1Of w) (immIOf w) else
  if funct3Of w = 3 then .csrrc (rdOf w) (rs1Of w) (immIOf w) else
  if funct3Of w = 5 then .csrrwi (rdOf w) (rs1Of w) (immIOf w) else
  if funct3Of w = 6 then .csrrsi (rdOf w) (rs1Of w) (immIOf w) else
  if funct3Of w = 7 then .csrrci (rdOf w) (rs1Of w) (immIOf w) else
  .rsvSystem4 (rdOf w) (rs1Of w) (immIOf w)

/-- Opcode `0x2F` with `funct3 = 2` (R300, R301). -/
def decodeAmoW (w : BitVec 32) : Instr :=
  if amoOpOf w = 0x02 then .lrW (rdOf w) (rs1Of w) (rs2Of w) (aqOf w) (rlOf w) else
  if amoOpOf w = 0x03 then .scW (rdOf w) (rs1Of w) (rs2Of w) (aqOf w) (rlOf w) else
  if amoOpOf w = 0x01 then .amoswapW (rdOf w) (rs1Of w) (rs2Of w) (aqOf w) (rlOf w) else
  if amoOpOf w = 0x00 then .amoaddW (rdOf w) (rs1Of w) (rs2Of w) (aqOf w) (rlOf w) else
  if amoOpOf w = 0x04 then .amoxorW (rdOf w) (rs1Of w) (rs2Of w) (aqOf w) (rlOf w) else
  if amoOpOf w = 0x0C then .amoandW (rdOf w) (rs1Of w) (rs2Of w) (aqOf w) (rlOf w) else
  if amoOpOf w = 0x08 then .amoorW (rdOf w) (rs1Of w) (rs2Of w) (aqOf w) (rlOf w) else
  if amoOpOf w = 0x10 then .amominW (rdOf w) (rs1Of w) (rs2Of w) (aqOf w) (rlOf w) else
  if amoOpOf w = 0x14 then .amomaxW (rdOf w) (rs1Of w) (rs2Of w) (aqOf w) (rlOf w) else
  if amoOpOf w = 0x18 then .amominuW (rdOf w) (rs1Of w) (rs2Of w) (aqOf w) (rlOf w) else
  if amoOpOf w = 0x1C then .amomaxuW (rdOf w) (rs1Of w) (rs2Of w) (aqOf w) (rlOf w) else
  .rsvAmoOp (amoOpOf w) (funct3Of w) (rdOf w) (rs1Of w) (rs2Of w) (aqOf w) (rlOf w)

/-- Opcode `0x2F` with `funct3 = 3` (R300, R301). -/
def decodeAmoD (w : BitVec 32) : Instr :=
  if amoOpOf w = 0x02 then .lrD (rdOf w) (rs1Of w) (rs2Of w) (aqOf w) (rlOf w) else
  if amoOpOf w = 0x03 then .scD (rdOf w) (rs1Of w) (rs2Of w) (aqOf w) (rlOf w) else
  if amoOpOf w = 0x01 then .amoswapD (rdOf w) (rs1Of w) (rs2Of w) (aqOf w) (rlOf w) else
  if amoOpOf w = 0x00 then .amoaddD (rdOf w) (rs1Of w) (rs2Of w) (aqOf w) (rlOf w) else
  if amoOpOf w = 0x04 then .amoxorD (rdOf w) (rs1Of w) (rs2Of w) (aqOf w) (rlOf w) else
  if amoOpOf w = 0x0C then .amoandD (rdOf w) (rs1Of w) (rs2Of w) (aqOf w) (rlOf w) else
  if amoOpOf w = 0x08 then .amoorD (rdOf w) (rs1Of w) (rs2Of w) (aqOf w) (rlOf w) else
  if amoOpOf w = 0x10 then .amominD (rdOf w) (rs1Of w) (rs2Of w) (aqOf w) (rlOf w) else
  if amoOpOf w = 0x14 then .amomaxD (rdOf w) (rs1Of w) (rs2Of w) (aqOf w) (rlOf w) else
  if amoOpOf w = 0x18 then .amominuD (rdOf w) (rs1Of w) (rs2Of w) (aqOf w) (rlOf w) else
  if amoOpOf w = 0x1C then .amomaxuD (rdOf w) (rs1Of w) (rs2Of w) (aqOf w) (rlOf w) else
  .rsvAmoOp (amoOpOf w) (funct3Of w) (rdOf w) (rs1Of w) (rs2Of w) (aqOf w) (rlOf w)

/-- Opcode `0x2F`: the size test comes before the test on `op` (R300, R301, R326). -/
def decodeAmo (w : BitVec 32) : Instr :=
  if funct3Of w = 0 ∨ funct3Of w = 1 then .rsvAmoSize (amoOpOf w) (funct3Of w) (rdOf w) (rs1Of w) (rs2Of w) (aqOf w) (rlOf w) else
  if funct3Of w = 2 then decodeAmoW w else
  if funct3Of w = 3 then decodeAmoD w else
  .rsvAmoWidth (amoOpOf w) (funct3Of w) (rdOf w) (rs1Of w) (rs2Of w) (aqOf w) (rlOf w)

/-- Opcode `0x0F` (R330, R336). -/
def decodeMiscMem (w : BitVec 32) : Instr :=
  if funct3Of w = 0 then .fence (rdOf w) (rs1Of w) (immIOf w) else
  if funct3Of w = 1 then .fenceI (rdOf w) (rs1Of w) (immIOf w) else
  .rsvMiscmem (funct3Of w) (rdOf w) (rs1Of w) (immIOf w)

/-- The instruction of a 32-bit word: dispatch on the opcode (R108, R109), then inside the family. Total. -/
def decode (w : BitVec 32) : Instr :=
  if opcodeOf w = 0x03 then decodeLoad w else
  if opcodeOf w = 0x23 then decodeStore w else
  if opcodeOf w = 0x63 then decodeBranch w else
  if opcodeOf w = 0x13 then decodeOpImm w else
  if opcodeOf w = 0x1B then decodeOpImm32 w else
  if opcodeOf w = 0x33 then decodeOp w else
  if opcodeOf w = 0x3B then decodeOp32 w else
  if opcodeOf w = 0x37 then .lui (rdOf w) (immUOf w) else
  if opcodeOf w = 0x17 then .auipc (rdOf w) (immUOf w) else
  if opcodeOf w = 0x6F then .jal (rdOf w) (immJOf w) else
  if opcodeOf w = 0x67 then .jalr (funct3Of w) (rdOf w) (rs1Of w) (immIOf w) else
  if opcodeOf w = 0x73 then decodeSystem w else
  if opcodeOf w = 0x2F then decodeAmo w else
  if opcodeOf w = 0x0F then decodeMiscMem w else
  if opcodeOf w = 0x07 then .fpLoad (restOf w) else
  if opcodeOf w = 0x27 then .fpStore (restOf w) else
  if opcodeOf w = 0x53 then .fpOp (restOf w) else
  .rsvUnknown w

/-- Why a byte string is no instruction. -/
inductive DecodeError where
  /-- Fewer than the four bytes of the one instruction length (R114). -/
  | tooShort
  deriving DecidableEq, Repr

/-- Four bytes as an instruction word, the first byte least significant (R68, R100). -/
def wordOfBytes (b0 b1 b2 b3 : Byte) : BitVec 32 := b3 ++ b2 ++ b1 ++ b0

/-- Decoding a byte string: the instruction of its first four bytes, and the bytes that follow. -/
def decodeBytes : List Byte → Except DecodeError (Instr × List Byte)
  | b0 :: b1 :: b2 :: b3 :: rest => .ok (decode (wordOfBytes b0 b1 b2 b3), rest)
  | _ => .error .tooShort

/-! ### The encoder: the formats of R110 -/

/-- R format. -/
def rType (f7 : BitVec 7) (rs2 rs1 : Reg) (f3 : BitVec 3) (rd : Reg) (op : BitVec 7) : BitVec 32 :=
  f7 ++ rs2 ++ rs1 ++ f3 ++ rd ++ op
/-- I format, and its CSR and SYSTEM variants. -/
def iType (imm : BitVec 12) (rs1 : Reg) (f3 : BitVec 3) (rd : Reg) (op : BitVec 7) : BitVec 32 :=
  imm ++ rs1 ++ f3 ++ rd ++ op
/-- S format. -/
def sType (imm : BitVec 12) (rs2 rs1 : Reg) (f3 : BitVec 3) (op : BitVec 7) : BitVec 32 :=
  imm.extractLsb' 5 7 ++ rs2 ++ rs1 ++ f3 ++ imm.extractLsb' 0 5 ++ op
/-- B format. -/
def bType (imm : BitVec 13) (rs2 rs1 : Reg) (f3 : BitVec 3) (op : BitVec 7) : BitVec 32 :=
  imm.extractLsb' 12 1 ++ imm.extractLsb' 5 6 ++ rs2 ++ rs1 ++ f3 ++ imm.extractLsb' 1 4 ++
    imm.extractLsb' 11 1 ++ op
/-- U format. -/
def uType (imm : BitVec 20) (rd : Reg) (op : BitVec 7) : BitVec 32 := imm ++ rd ++ op
/-- J format. -/
def jType (imm : BitVec 21) (rd : Reg) (op : BitVec 7) : BitVec 32 :=
  imm.extractLsb' 20 1 ++ imm.extractLsb' 1 10 ++ imm.extractLsb' 11 1 ++ imm.extractLsb' 12 8 ++ rd ++ op
/-- The 64-bit shift immediates: a 6-bit function code and a 6-bit amount. -/
def shift6Type (f6 : BitVec 6) (shamt : BitVec 6) (rs1 : Reg) (f3 : BitVec 3) (rd : Reg) (op : BitVec 7) :
    BitVec 32 :=
  f6 ++ shamt ++ rs1 ++ f3 ++ rd ++ op
/-- The atomic format. -/
def amoType (aop : BitVec 5) (aq rl : BitVec 1) (rs2 rs1 : Reg) (f3 : BitVec 3) (rd : Reg) (op : BitVec 7) :
    BitVec 32 :=
  aop ++ aq ++ rl ++ rs2 ++ rs1 ++ f3 ++ rd ++ op
/-- A row that looks at the opcode only. -/
def anyType (rest : BitVec 25) (op : BitVec 7) : BitVec 32 := rest ++ op

/-- The word of an instruction, from the same encoding tables. -/
def encode : Instr → BitVec 32
  | .lb rd rs1 imm => iType imm rs1 0 rd 0x03
  | .lh rd rs1 imm => iType imm rs1 1 rd 0x03
  | .lw rd rs1 imm => iType imm rs1 2 rd 0x03
  | .ld rd rs1 imm => iType imm rs1 3 rd 0x03
  | .lbu rd rs1 imm => iType imm rs1 4 rd 0x03
  | .lhu rd rs1 imm => iType imm rs1 5 rd 0x03
  | .lwu rd rs1 imm => iType imm rs1 6 rd 0x03
  | .sb rs1 rs2 imm => sType imm rs2 rs1 0 0x23
  | .sh rs1 rs2 imm => sType imm rs2 rs1 1 0x23
  | .sw rs1 rs2 imm => sType imm rs2 rs1 2 0x23
  | .sd rs1 rs2 imm => sType imm rs2 rs1 3 0x23
  | .beq rs1 rs2 imm => bType imm rs2 rs1 0 0x63
  | .bne rs1 rs2 imm => bType imm rs2 rs1 1 0x63
  | .blt rs1 rs2 imm => bType imm rs2 rs1 4 0x63
  | .bge rs1 rs2 imm => bType imm rs2 rs1 5 0x63
  | .bltu rs1 rs2 imm => bType imm rs2 rs1 6 0x63
  | .bgeu rs1 rs2 imm => bType imm rs2 rs1 7 0x63
  | .addi rd rs1 imm => iType imm rs1 0 rd 0x13
  | .slti rd rs1 imm => iType imm rs1 2 rd 0x13
  | .sltiu rd rs1 imm => iType imm rs1 3 rd 0x13
  | .xori rd rs1 imm => iType imm rs1 4 rd 0x13
  | .ori rd rs1 imm => iType imm rs1 6 rd 0x13
  | .andi rd rs1 imm => iType imm rs1 7 rd 0x13
  | .slli rd rs1 shamt => shift6Type 0x00 shamt rs1 1 rd 0x13
  | .srli rd rs1 shamt => shift6Type 0x00 shamt rs1 5 rd 0x13
  | .srai rd rs1 shamt => shift6Type 0x10 shamt rs1 5 rd 0x13
  | .addiw rd rs1 imm => iType imm rs1 0 rd 0x1B
  | .slliw rd rs1 shamt => rType 0x00 shamt rs1 1 rd 0x1B
  | .srliw rd rs1 shamt => rType 0x00 shamt rs1 5 rd 0x1B
  | .sraiw rd rs1 shamt => rType 0x20 shamt rs1 5 rd 0x1B
  | .add rd rs1 rs2 => rType 0x00 rs2 rs1 0 rd 0x33
  | .sub rd rs1 rs2 => rType 0x20 rs2 rs1 0 rd 0x33
  | .sll rd rs1 rs2 => rType 0x00 rs2 rs1 1 rd 0x33
  | .slt rd rs1 rs2 => rType 0x00 rs2 rs1 2 rd 0x33
  | .sltu rd rs1 rs2 => rType 0x00 rs2 rs1 3 rd 0x33
  | .xor rd rs1 rs2 => rType 0x00 rs2 rs1 4 rd 0x33
  | .srl rd rs1 rs2 => rType 0x00 rs2 rs1 5 rd 0x33
  | .sra rd rs1 rs2 => rType 0x20 rs2 rs1 5 rd 0x33
  | .or rd rs1 rs2 => rType 0x00 rs2 rs1 6 rd 0x33
  | .and rd rs1 rs2 => rType 0x00 rs2 rs1 7 rd 0x33
  | .mul rd rs1 rs2 => rType 0x01 rs2 rs1 0 rd 0x33
  | .mulh rd rs1 rs2 => rType 0x01 rs2 rs1 1 rd 0x33
  | .mulhsu rd rs1 rs2 => rType 0x01 rs2 rs1 2 rd 0x33
  | .mulhu rd rs1 rs2 => rType 0x01 rs2 rs1 3 rd 0x33
  | .div rd rs1 rs2 => rType 0x01 rs2 rs1 4 rd 0x33
  | .divu rd rs1 rs2 => rType 0x01 rs2 rs1 5 rd 0x33
  | .rem rd rs1 rs2 => rType 0x01 rs2 rs1 6 rd 0x33
  | .remu rd rs1 rs2 => rType 0x01 rs2 rs1 7 rd 0x33
  | .addw rd rs1 rs2 => rType 0x00 rs2 rs1 0 rd 0x3B
  | .subw rd rs1 rs2 => rType 0x20 rs2 rs1 0 rd 0x3B
  | .sllw rd rs1 rs2 => rType 0x00 rs2 rs1 1 rd 0x3B
  | .srlw rd rs1 rs2 => rType 0x00 rs2 rs1 5 rd 0x3B
  | .sraw rd rs1 rs2 => rType 0x20 rs2 rs1 5 rd 0x3B
  | .mulw rd rs1 rs2 => rType 0x01 rs2 rs1 0 rd 0x3B
  | .divw rd rs1 rs2 => rType 0x01 rs2 rs1 4 rd 0x3B
  | .divuw rd rs1 rs2 => rType 0x01 rs2 rs1 5 rd 0x3B
  | .remw rd rs1 rs2 => rType 0x01 rs2 rs1 6 rd 0x3B
  | .remuw rd rs1 rs2 => rType 0x01 rs2 rs1 7 rd 0x3B
  | .lui rd imm => uType imm rd 0x37
  | .auipc rd imm => uType imm rd 0x17
  | .jal rd imm => jType imm rd 0x6F
  | .jalr f3 rd rs1 imm => iType imm rs1 f3 rd 0x67
  | .ecall rd rs1 => iType 0 rs1 0 rd 0x73
  | .ebreak rd rs1 => iType 1 rs1 0 rd 0x73
  | .csrrw rd rs1 csr => iType csr rs1 1 rd 0x73
  | .csrrs rd rs1 csr => iType csr rs1 2 rd 0x73
  | .csrrc rd rs1 csr => iType csr rs1 3 rd 0x73
  | .csrrwi rd uimm csr => iType csr uimm 5 rd 0x73
  | .csrrsi rd uimm csr => iType csr uimm 6 rd 0x73
  | .csrrci rd uimm csr => iType csr uimm 7 rd 0x73
  | .lrW rd rs1 rs2 aq rl => amoType 0x02 aq rl rs2 rs1 2 rd 0x2F
  | .lrD rd rs1 rs2 aq rl => amoType 0x02 aq rl rs2 rs1 3 rd 0x2F
  | .scW rd rs1 rs2 aq rl => amoType 0x03 aq rl rs2 rs1 2 rd 0x2F
  | .scD rd rs1 rs2 aq rl => amoType 0x03 aq rl rs2 rs1 3 rd 0x2F
  | .amoswapW rd rs1 rs2 aq rl => amoType 0x01 aq rl rs2 rs1 2 rd 0x2F
  | .amoaddW rd rs1 rs2 aq rl => amoType 0x00 aq rl rs2 rs1 2 rd 0x2F
  | .amoxorW rd rs1 rs2 aq rl => amoType 0x04 aq rl rs2 rs1 2 rd 0x2F
  | .amoandW rd rs1 rs2 aq rl => amoType 0x0C aq rl rs2 rs1 2 rd 0x2F
  | .amoorW rd rs1 rs2 aq rl => amoType 0x08 aq rl rs2 rs1 2 rd 0x2F
  | .amominW rd rs1 rs2 aq rl => amoType 0x10 aq rl rs2 rs1 2 rd 0x2F
  | .amomaxW rd rs1 rs2 aq rl => amoType 0x14 aq rl rs2 rs1 2 rd 0x2F
  | .amominuW rd rs1 rs2 aq rl => amoType 0x18 aq rl rs2 rs1 2 rd 0x2F
  | .amomaxuW rd rs1 rs2 aq rl => amoType 0x1C aq rl rs2 rs1 2 rd 0x2F
  | .amoswapD rd rs1 rs2 aq rl => amoType 0x01 aq rl rs2 rs1 3 rd 0x2F
  | .amoaddD rd rs1 rs2 aq rl => amoType 0x00 aq rl rs2 rs1 3 rd 0x2F
  | .amoxorD rd rs1 rs2 aq rl => amoType 0x04 aq rl rs2 rs1 3 rd 0x2F
  | .amoandD rd rs1 rs2 aq rl => amoType 0x0C aq rl rs2 rs1 3 rd 0x2F
  | .amoorD rd rs1 rs2 aq rl => amoType 0x08 aq rl rs2 rs1 3 rd 0x2F
  | .amominD rd rs1 rs2 aq rl => amoType 0x10 aq rl rs2 rs1 3 rd 0x2F
  | .amomaxD rd rs1 rs2 aq rl => amoType 0x14 aq rl rs2 rs1 3 rd 0x2F
  | .amominuD rd rs1 rs2 aq rl => amoType 0x18 aq rl rs2 rs1 3 rd 0x2F
  | .amomaxuD rd rs1 rs2 aq rl => amoType 0x1C aq rl rs2 rs1 3 rd 0x2F
  | .fence rd rs1 imm => iType imm rs1 0 rd 0x0F
  | .fenceI rd rs1 imm => iType imm rs1 1 rd 0x0F
  | .fpLoad rest => anyType rest 0x07
  | .fpStore rest => anyType rest 0x27
  | .fpOp rest => anyType rest 0x53
  | .rsvLoad7 rd rs1 imm => iType imm rs1 7 rd 0x03
  | .rsvStore f3 rs1 rs2 imm => sType imm rs2 rs1 f3 0x23
  | .rsvBranch f3 rs1 rs2 imm => bType imm rs2 rs1 f3 0x63
  | .rsvOpImm f6 f3 rd rs1 shamt => shift6Type f6 shamt rs1 f3 rd 0x13
  | .rsvOpImm32 f7 f3 rd rs1 shamt => rType f7 shamt rs1 f3 rd 0x1B
  | .rsvOp f7 f3 rd rs1 rs2 => rType f7 rs2 rs1 f3 rd 0x33
  | .rsvOp32 f7 f3 rd rs1 rs2 => rType f7 rs2 rs1 f3 rd 0x3B
  | .rsvSystem0 rd rs1 imm => iType imm rs1 0 rd 0x73
  | .rsvSystem4 rd rs1 imm => iType imm rs1 4 rd 0x73
  | .rsvAmoSize op f3 rd rs1 rs2 aq rl => amoType op aq rl rs2 rs1 f3 rd 0x2F
  | .rsvAmoWidth op f3 rd rs1 rs2 aq rl => amoType op aq rl rs2 rs1 f3 rd 0x2F
  | .rsvAmoOp op f3 rd rs1 rs2 aq rl => amoType op aq rl rs2 rs1 f3 rd 0x2F
  | .rsvMiscmem f3 rd rs1 imm => iType imm rs1 f3 rd 0x0F
  | .rsvUnknown word => word

/-- Byte `k` of an instruction word, byte 0 the least significant. -/
def wordByte (w : BitVec 32) (k : Nat) : Byte := w.extractLsb' (8 * k) 8

/-- The four bytes of an instruction as they lie in memory (R68). -/
def encodeBytes (i : Instr) : List Byte :=
  [wordByte (encode i) 0, wordByte (encode i) 1, wordByte (encode i) 2, wordByte (encode i) 3]

/-- The instruction the decoder reads from the `nbits` low bits of `w`, laid out as bytes in memory order. Every
instruction is one word of 32 bits, and the bits above `nbits` are 0. -/
def decodeTableWord (nbits w : Nat) : Option Instr :=
  let word : BitVec 32 := BitVec.ofNat 32 (w % 2 ^ nbits)
  match decodeBytes [wordByte word 0, wordByte word 1, wordByte word 2, wordByte word 3] with
  | .ok (i, _) => some i
  | .error _ => none

end Sys2Proof
end

