-- ==== Sys2Proof/Machine/Flags.lean ====
section
/-! DEFINITION. The block has no flags (10_state.md R33): no instruction computes one. What stands in their place are the
comparisons that branches, set-less-than and the minimum and maximum AMOs make, whose results go to a register,
to memory or to the choice of the next pc. -/

namespace Sys2Proof.Machine

/-- `signed(a) < signed(b)` (R163, R172, R194). -/
def ltSigned (a b : Word) : Bool := decide (a.toInt < b.toInt)

/-- `a < b` as unsigned 64-bit numbers (R165, R173, R195). -/
def ltUnsigned (a b : Word) : Bool := decide (a.toNat < b.toNat)

/-- A truth value as the register value 1 or 0 (R172). -/
def boolWord (b : Bool) : Word := if b then 1 else 0

end Sys2Proof.Machine
end

