-- ==== Sys2Proof/Machine/Operands.lean ====
section
/-! DEFINITION. Operand forms: extension (00_scope.md R11), the immediates at the width they are used
(30_encoding.md R102 to R107) and the shift amounts. -/

namespace Sys2Proof.Machine

/-- `sext_N` (R11). -/
def sext (n : Nat) (v : Word) : Word := (v.setWidth n).signExtend 64

/-- `sext_32` of a 32-bit result: the W forms end with it (R180, R201, R219). -/
def sext32 (v : BitVec 32) : Word := v.signExtend 64

/-- Bits 31 to 0 of a register value. -/
def low32 (v : Word) : BitVec 32 := v.setWidth 32

/-- `immI` (R102). -/
def immI (imm : BitVec 12) : Word := imm.signExtend 64

/-- `immS` (R103). -/
def immS (imm : BitVec 12) : Word := imm.signExtend 64

/-- `immB` (R104). -/
def immB (imm : BitVec 13) : Word := imm.signExtend 64

/-- `sext_32(immU << 12)` (R105, R230). -/
def immU (imm : BitVec 20) : Word := sext32 (imm ++ 0#12)

/-- `immJ` (R106). -/
def immJ (imm : BitVec 21) : Word := imm.signExtend 64

/-- The immediate operand of the CSR instructions, `zext_5` (R107, R245). -/
def immCsr (uimm : BitVec 5) : Word := uimm.setWidth 64

/-- A 64-bit shift by a register uses its low 6 bits (R190, R193). -/
def shiftAmount64 (v : Word) : Nat := (v.extractLsb' 0 6).toNat

/-- A 32-bit shift by a register uses its low 5 bits (R201, R204). -/
def shiftAmount32 (v : Word) : Nat := (v.extractLsb' 0 5).toNat

end Sys2Proof.Machine
end

