-- ==== Sys2Proof/Machine/Keccak.lean ====
section
/-! DEFINITION. Keccak-256 (20_memory.md R62, R82): the node hash of the Merkle tree and the state hash. The spec's
definition is general knowledge, which R62 and D4 give the model (Assumption 7).

The 25 lanes of R82 are packed into one natural number, lane `A[x][y]` at bits `64*(x + 5*y)` upwards, so that
Lean's kernel can evaluate a hash: `y` numbers a plane of five lanes (320 bits), `x` a lane of the plane. -/

namespace Sys2Proof.Machine

/-- `f a`, evaluated with `a` first: `eager_eq` says that it is `f a`. It matters to the kernel's speed only. -/
def eager {α : Type} (a : Nat) (f : Nat → α) : α :=
  match a with
  | 0 => f 0
  | k + 1 => f (k + 1)

/-- Lane `x` of the result is lane `x + k mod 5` of the plane `p`. -/
def planeTurn (k p : Nat) : Nat := p >>> (64 * k) ||| (p % 2 ^ (64 * k)) <<< (64 * (5 - k))

/-- Plane `y` of the state: lanes `A[0][y]` to `A[4][y]`. -/
def plane (a y : Nat) : Nat := (a >>> (320 * y)) % 2 ^ 320

/-- `rol(v, 1)` on each of the five lanes of a plane. -/
def planeRol1 (p : Nat) : Nat :=
  (p &&& 0x7fffffffffffffff7fffffffffffffff7fffffffffffffff7fffffffffffffff7fffffffffffffff) <<< 1 |||
    (p >>> 63 &&& 0x00000000000000010000000000000001000000000000000100000000000000010000000000000001)

/-- A plane repeated in all five planes. -/
def planeRepeat (p : Nat) : Nat :=
  p ||| p <<< 320 ||| p <<< 640 ||| p <<< 960 ||| p <<< 1280

/-- The step theta: `C[x]` is the parity of column `x`, `D[x] = C[x+4] xor rol(C[x+1], 1)`. -/
def keccakTheta (a : Nat) : Nat :=
  eager (plane a 0 ^^^ plane a 1 ^^^ plane a 2 ^^^ plane a 3 ^^^ plane a 4) fun c =>
    a ^^^ planeRepeat (planeTurn 4 c ^^^ planeRol1 (planeTurn 1 c))

/-- Lane number `lane` of `a`, rotated left by `rot`, put at lane number `target` (a lane's number is `x + 5*y`). -/
def moveLane (a lane rot target : Nat) : Nat :=
  eager (Nat.mod (Nat.shiftRight a (Nat.mul 64 lane)) 0x10000000000000000) fun v =>
    Nat.shiftLeft (Nat.mod (Nat.lor (Nat.shiftLeft v rot) (Nat.shiftRight v (Nat.sub 64 rot))) 0x10000000000000000)
      (Nat.mul 64 target)

/-- Five parts that share no bit, put together. -/
def join5 (p0 p1 p2 p3 p4 : Nat) : Nat := Nat.lor (Nat.lor (Nat.lor (Nat.lor p0 p1) p2) p3) p4

/-- The steps rho and pi: `B[y][(2x + 3y) mod 5] = rol(A[x][y], ROT[x][y])`. One group of five per plane of the
result; each call names the lane `x + 5*y`, its `ROT[x][y]` and the lane it becomes. -/
def keccakRhoPi (a : Nat) : Nat :=
  join5
    (join5 (moveLane a 0 0 0) (moveLane a 6 44 1) (moveLane a 12 43 2)
      (moveLane a 18 21 3) (moveLane a 24 14 4))
    (join5 (moveLane a 3 28 5) (moveLane a 9 20 6) (moveLane a 10 3 7)
      (moveLane a 16 45 8) (moveLane a 22 61 9))
    (join5 (moveLane a 1 1 10) (moveLane a 7 6 11) (moveLane a 13 25 12)
      (moveLane a 19 8 13) (moveLane a 20 18 14))
    (join5 (moveLane a 4 27 15) (moveLane a 5 36 16) (moveLane a 11 10 17)
      (moveLane a 17 15 18) (moveLane a 23 56 19))
    (join5 (moveLane a 2 62 20) (moveLane a 8 55 21) (moveLane a 14 39 22)
      (moveLane a 15 41 23) (moveLane a 21 2 24))

/-- The step chi on one plane: `B[x] xor ((not B[x+1]) and B[x+2])`. -/
def planeChi (p : Nat) : Nat := p ^^^ ((planeTurn 1 p ^^^ (2 ^ 320 - 1)) &&& planeTurn 2 p)

/-- The step chi. -/
def keccakChi (b : Nat) : Nat :=
  planeChi (plane b 0) ||| planeChi (plane b 1) <<< 320 ||| planeChi (plane b 2) <<< 640 |||
    planeChi (plane b 3) <<< 960 ||| planeChi (plane b 4) <<< 1280

/-- The round constants `RC[0 .. 23]`. -/
def roundConstants : List Nat :=
  [0x0000000000000001, 0x0000000000008082, 0x800000000000808A, 0x8000000080008000,
   0x000000000000808B, 0x0000000080000001, 0x8000000080008081, 0x8000000000008009] ++
  [0x000000000000008A, 0x0000000000000088, 0x0000000080008009, 0x000000008000000A,
   0x000000008000808B, 0x800000000000008B, 0x8000000000008089, 0x8000000000008003] ++
  [0x8000000000008002, 0x8000000000000080, 0x000000000000800A, 0x800000008000000A,
   0x8000000080008081, 0x8000000000008080, 0x0000000080000001, 0x8000000080008008]

/-- Keccak-f[1600]: the 24 rounds, `RC[r]` entering lane `A[0][0]` (the step iota). -/
def keccakF (a : Nat) : Nat :=
  roundConstants.foldl
    (fun s rc => eager (keccakTheta s) fun t => eager (keccakRhoPi t) fun b => eager (keccakChi b) fun c => c ^^^ rc) a

/-- A byte string as a number, first byte least significant. -/
def leNat : List Byte → Nat
  | [] => 0
  | b :: bs => b.toNat + 256 * leNat bs

/-- The padding: `0x01`, then zero bytes up to the end of the last block (kept as a number, so they need not be
written), and `0x80` into its last byte. -/
def lastBlock (bs : List Byte) : Nat := leNat (bs ++ [0x01]) ||| 0x80 <<< (8 * 135)

/-- Absorbs the data from the state `a` on: a full block of 136 bytes as long as there is one, then the padded rest.
The fuel is at least the number of blocks. -/
def absorb : Nat → List Byte → Nat → Nat
  | 0, data, a => keccakF (a ^^^ lastBlock data)
  | fuel + 1, data, a =>
    if data.length < 136 then keccakF (a ^^^ lastBlock data)
    else eager (keccakF (a ^^^ leNat (data.take 136))) fun a' => absorb fuel (data.drop 136) a'

/-- The 32 bytes of a number, its least significant byte first, as a 32-byte string. -/
def bytes32OfLe (n : Nat) : Bytes32 :=
  BitVec.ofNat 256
    ((List.range 32).foldl (fun acc k => acc * 256 + (n >>> (8 * k)) % 256) 0)

/-- `keccak256` of a byte string (R82). -/
@[irreducible] def keccak256 (data : List Byte) : Bytes32 := bytes32OfLe (absorb data.length data 0)

end Sys2Proof.Machine
end

