-- ==== Sys2Proof/Config.lean ====
section
/-! DEFINITION. The open parameters of the hardware (00_scope.md R8): what the spec leaves to agents outside the
block. Each is opaque, so nothing can be proved about its values and a claim holds whatever they are. -/

namespace Sys2Proof

/-- An answer on the oracle port (10_state.md R39): an error, or a 32-byte chunk with the number of its bytes
that count. The interface allows lengths 0 to 32; an answer above 32 breaks it and the step is refused. -/
inductive OracleAnswer where
  | error
  | data (chunk : Bytes32) (length : Byte)
  deriving DecidableEq, Repr, Inhabited

namespace Config

/-- The pre-image oracle as a pure function of key and offset (R39, R283, parameter `oracle` of R8). It answers
every query that the plain-data table `State.oracle` does not list. Assumption 6. -/
opaque oracle : Bytes32 → Word → OracleAnswer

/-- What the host does to the record's field `step` between two steps (R27, R46, parameter `hostStepUpdate`
of R8). Assumption 5. -/
opaque hostStepUpdate : Word → Word

end Config

end Sys2Proof
end

