-- ==== Sys2Proof/Machine/State.lean ====
section
/-! DEFINITION. The state: the 362-byte record of 10_state.md R20 field by field, and beside it what the spec lets a
model carry to chain steps: the conceptual memory (R34), the host's calldata (R36), the oracle's answers (R39) and
the output port (R40). Plain data throughout. The reasons a step can stop, and the state at reset. -/

namespace Sys2Proof.Machine

/-- Memory as address and byte pairs: addresses strictly rising, all below 2^64, no byte 0 (what an unlisted address
reads as, Assumption 3). The operations over it are in Machine/Memory.lean. -/
abbrev Memory := List Host.Cell

/-- The state record after its first field: bytes 32 to 361 (R20). "All mutable state lives in the state buffer" (R33):
there are no flags, no CSRs, no floating-point registers, no mode bit, no interrupt state and no counters beside
these fields and `memRoot`. -/
structure RecordTail where
  /-- The oracle query key; byte 0 of the field is the most significant byte (R22). -/
  preimageKey : Bytes32
  /-- Next byte to read from the pre-image value (R23). -/
  preimageOffset : Word
  /-- Program counter (R24). -/
  pc : Word
  /-- Guest exit status once exited (R25). -/
  exitCode : Byte
  /-- 0 or 1; once 1, a step is a no-op (R26). -/
  exited : Byte
  /-- The field `step`: a counter kept by the host, never touched by the core (R27). -/
  stepCounter : Word
  /-- Next anonymous-mmap address (R28). -/
  heap : Word
  /-- Address reserved by the last LR; 0 means none (R29). -/
  loadReservation : Word
  /-- x0 to x31 (R30); the x0 slot is stored, is 0 in a well-formed record, and is never written (R31). -/
  regs : Vector Word 32
  deriving DecidableEq, Repr

/-- The whole state record (R20), as it stands in calldata and as it is hashed. -/
structure Record extends RecordTail where
  /-- Merkle root of the memory (R21). -/
  memRoot : Bytes32
  deriving DecidableEq, Repr

/-- Where the 32 bytes of the state's `memRoot` are kept (R21, R34, Assumption 17). The field is stored once: as the
digest itself, or, when it was committed from the host's memory, as the word that it is the root of that memory.
`State.memRoot` gives the 32 bytes in either case. -/
inductive RootSource where
  /-- `memRoot` is the Merkle root of the field `mem`. -/
  | ofMemory
  /-- `memRoot` is these 32 bytes: they came in with calldata, or were folded from a block of calldata. -/
  | digest (root : Bytes32)
  deriving DecidableEq, Repr

/-- One answer of the oracle port, held as data: what `oracle.read(key, offset)` gives (R39). -/
structure OracleEntry where
  /-- The queried key. -/
  key : Bytes32
  /-- The queried offset. -/
  offset : Word
  /-- The answer. -/
  answer : OracleAnswer
  deriving DecidableEq, Repr

/-- The machine between two steps: the record and the world the step is given. -/
structure State extends RecordTail where
  /-- The record's first field `memRoot` (R21), in the form it is kept in; `State.memRoot` is its value. -/
  root : RootSource
  /-- The conceptual memory, which is also the host's copy of the tree (R34, R76). -/
  mem : Memory
  /-- Calldata strings the host has prepared, the next step's first (R36). With none prepared the host builds the next
  one itself from the record and `mem`, with honest proof blocks (R376, Assumption 4). -/
  inputs : List (List Byte)
  /-- The oracle's answers that are given as data; every other query is answered by `Config.oracle`
  (R39, R283, Assumption 6). -/
  oracleTable : List OracleEntry
  /-- The output port: the state hash the last step returned, none before the first step (R40, R44). -/
  stateHash : Option Bytes32
  deriving DecidableEq, Repr

/-- The fatal reverts of R341. Each ends the step with its code, no new state and no hash (R340). All are safe: they
are the hardware's own. -/
inductive Fault where
  /-- `0xbad10ad0`: raised by a leaf access at an address that is no multiple of 32. No instruction reaches it
  (R64). Safe. -/
  | unalignedMerkle
  /-- `0x0badf00d`: raised by a leaf read whose proof does not fold to `memRoot` (R64) and by an oracle error
  (R282). Safe. -/
  | badProof
  /-- `0xbad4e9`: an invalid register index. A register number has five bits here, so nothing raises it
  (R30). Safe. -/
  | invalidRegister
  /-- `0xbadc0de0`: raised by opcode `0x73` with `funct3 = 4` (R252). Safe. -/
  | invalidCsrMode
  /-- `0xbada70`: raised by opcode `0x2F` with `funct3` 0 or 1 (R301). Safe. -/
  | invalidAmoSize
  /-- `0xf001a70`: raised by opcode `0x2F` with an unlisted `op` (R301). Safe. -/
  | unknownAmoOp
  /-- `0xf001c0de`: raised by an opcode that is none of the 17 (R109). Safe. -/
  | unknownOpcode
  /-- `0xf001ca11`: raised by ECALL with an unsupported number (R277). Safe. -/
  | unknownSyscall
  /-- `0xf0012`: raised by getrlimit of another resource than 7 (R273). Safe. -/
  | unknownRlimit
  deriving DecidableEq, Repr

/-- The `Unspecified` outcomes of R342: the spec gives neither a result nor a code and asks the model to refuse. All
are safe: nothing can be proved of what follows. -/
inductive Refusal where
  /-- An instruction without a meaning in this model. No arm answers it. Safe. -/
  | notModelled (mnemonic : String)
  /-- Calldata too short for the record, raised by the delivery of the input (R36). Safe. -/
  | shortCalldata
  /-- Calldata that ends inside a proof block that is read, raised by the leaf operations (R36, R63). Safe. -/
  | missingProof
  /-- Proof index `0xFF` consulted, raised by a fetch that crosses a leaf (R63, R75). Safe. -/
  | noProofProvided
  /-- `exited` neither 0 nor 1, or a non-zero x0 slot, raised by the step (R35). Safe. -/
  | illFormedState
  /-- An oracle answer longer than 32 bytes, raised by the read on fd 5 (R39). Safe. -/
  | oracleLength
  /-- Opcode `0x23` with `funct3` 4 to 7 (R155). Safe. -/
  | reservedStore
  /-- Opcode `0x63` with `funct3` 2 or 3 (R167). Safe. -/
  | reservedBranch
  /-- Opcode `0x13`, an unlisted shift code (R185). Safe. -/
  | reservedOpImm
  /-- Opcode `0x1B`, unlisted codes (R186). Safe. -/
  | reservedOpImm32
  /-- Opcode `0x33`, unlisted codes (R207). Safe. -/
  | reservedOp
  /-- Opcode `0x3B`, unlisted codes (R208). Safe. -/
  | reservedOp32
  /-- Opcode `0x2F` with `funct3` 4 to 7 (R326). Safe. -/
  | reservedAmoWidth
  deriving DecidableEq, Repr

/-- The root of the all-zero memory, `Z59` of 95_test_vectors.md section 3.2. -/
def zeroMemoryRoot : Bytes32 := 0x14af5385bcbb1e4738bbae8106046e6e2fca42875aa5c000c582587742bcc748#256

/-- The first record. The hardware has no reset (R47): every field is the host's `S0`. The model takes the test fixture
of R370, all fields 0 and the root of the all-zero memory, `zeroMemoryRoot` (DESIGN CHOICE, Assumption 1, unsafe), with no program
loaded, no calldata prepared and no answer tabled. -/
def State.reset : State where
  root := .ofMemory
  preimageKey := 0
  preimageOffset := 0
  pc := 0
  exitCode := 0
  exited := 0
  stepCounter := 0
  heap := 0
  loadReservation := 0
  regs := Vector.replicate 32 0
  mem := []
  inputs := []
  oracleTable := []
  stateHash := none

end Sys2Proof.Machine
end

