-- ==== Sys2Proof/Machine/Memory.lean ====
section
/-! DEFINITION. The conceptual memory as data (10_state.md R34, 20_memory.md R60): one byte per address, 2^64
addresses, no holes. An address that is not listed reads as 0 (Assumption 3). Wider values are little-endian
(R68) and addresses wrap at 2^64 (R70); both are decided here once. -/

namespace Sys2Proof.Machine

/-- The byte at an address. -/
def Memory.read : Memory → Nat → Byte
  | [], _ => 0
  | (b, v) :: rest, a => if a = b then v else Memory.read rest a

/-- Puts a cell in front of the first cell with a higher address. -/
def Memory.insertCell (a : Nat) (v : Byte) : Memory → Memory
  | [] => [(a, v)]
  | c :: rest => if a < c.1 then (a, v) :: c :: rest else c :: Memory.insertCell a v rest

/-- Writing one byte. Writing 0, which an unlisted address reads as, takes the cell out. -/
def Memory.write (m : Memory) (a : Nat) (v : Byte) : Memory :=
  if v = 0 then m.filter (fun c => c.1 != a) else Memory.insertCell a v (m.filter (fun c => c.1 != a))

/-- The canonical form: addresses strictly rising and below 2^64, no byte 0. -/
abbrev Memory.wf (m : Memory) : Prop :=
  m.Pairwise (fun c d => c.1 < d.1) ∧ ∀ c ∈ m, c.1 < 2 ^ 64 ∧ c.2 ≠ 0

/-- The address `addr + j`, modulo 2^64 (R10, R70). -/
def byteAddress (addr : Word) (j : Nat) : Nat := (addr + BitVec.ofNat 64 j).toNat

/-- Byte `j` of a little-endian value: `(value >> (8*j)) & 0xFF` (R67). -/
def valueByte (value j : Nat) : Byte := BitVec.ofNat 8 (value >>> (8 * j))

/-- The little-endian value of `n` bytes `f 0 … f (n-1)` (R66). -/
def leValue : Nat → (Nat → Byte) → Nat
  | 0, _ => 0
  | n + 1, f => (f 0).toNat + 256 * leValue n (fun j => f (j + 1))

/-- The big-endian value of `n` bytes, `f 0` the most significant. -/
def beValue : Nat → (Nat → Byte) → Nat
  | 0, _ => 0
  | n + 1, f => beValue n f * 256 + (f n).toNat

/-- An ordinary little-endian read of `size` bytes, what `loadMem` amounts to with honest proofs (R76(c)). -/
def Memory.load (m : Memory) (addr : Word) (size : Nat) : Word :=
  BitVec.ofNat 64 (leValue size (fun j => m.read (byteAddress addr j)))

/-- Writing the bytes `f 0 … f (n-1)` at `addr` upwards, in that order. -/
def Memory.store (m : Memory) (addr : Word) (f : Nat → Byte) : Nat → Memory
  | 0 => m
  | n + 1 => (Memory.store m addr f n).write (byteAddress addr n) (f n)

end Sys2Proof.Machine
end

