-- ==== Sys2Proof/Machine/Merkle.lean ====
section
/-! DEFINITION. Leaves, the Merkle tree and the walk from a leaf to the root (20_memory.md R61, R64). -/

namespace Sys2Proof.Machine

/-! ### Leaves: 32-byte strings -/

/-- Byte `k` of a 32-byte string, byte 0 the most significant of the bit vector. -/
def byteOf (b : Bytes32) (k : Nat) : Byte := valueByte b.toNat (31 - k)

/-- The 32-byte string with bytes `f 0 … f 31`. -/
def bytes32Of (f : Nat → Byte) : Bytes32 := BitVec.ofNat 256 (beValue 32 f)

/-- A 32-byte string as a list of bytes, byte 0 first. -/
def bytes32List (b : Bytes32) : List Byte := (List.range 32).map (byteOf b)

/-- The 32-byte string at the head of a byte string; bytes beyond the end count as 0. -/
def bytes32OfList (bs : List Byte) : Bytes32 := bytes32Of (fun k => bs.getD k 0)

/-- `leaf[off + j] <- f j` for `j < n` (R67). -/
def patchLeaf (leaf : Bytes32) (off n : Nat) (f : Nat → Byte) : Bytes32 :=
  bytes32Of (fun k => if off ≤ k ∧ k < off + n then f (k - off) else byteOf leaf k)

/-- Leaf `j` of a memory: the bytes at addresses `32*j … 32*j + 31` (R61). -/
def leafAt (m : Memory) (j : Nat) : Bytes32 := bytes32Of (fun k => m.read (32 * j + k))

/-! ### The tree -/

/-- The hash of a non-leaf, `keccak256(left ‖ right)` (R61). -/
def hashPair (left right : Bytes32) : Bytes32 := keccak256 (bytes32List left ++ bytes32List right)

/-- `node(d, j)` of R61. -/
def merkleNode (m : Memory) : Nat → Nat → Bytes32
  | 0, j => leafAt m j
  | d + 1, j => hashPair (merkleNode m d (2 * j)) (merkleNode m d (2 * j + 1))

/-- The number of levels between a leaf and the root (R61). -/
def merkleDepth : Nat := 59

/-- `node(d, ·)`, …, `node(0, ·)` of the all-zero memory. -/
def zeroNodes : Nat → List Bytes32
  | 0 => [0]
  | d + 1 =>
    match zeroNodes d with
    | [] => []
    | z :: zs => eager (hashPair z z).toNat fun h => BitVec.ofNat 256 h :: z :: zs

/-- Whether a memory lists a byte below `node(d, j)`. -/
def touches (m : Memory) (d j : Nat) : Bool := m.any (fun c => c.1 >>> (5 + d) == j)

/-- `node(d, j)` computed without visiting the untouched subtrees: `zeros` is `zeroNodes d`
(`sparseNode_eq` says that it is `merkleNode`). -/
def sparseNode (m : Memory) : Nat → List Bytes32 → Nat → Bytes32
  | 0, _, j => leafAt m j
  | d + 1, zeros, j =>
    if touches m (d + 1) j then
      eager (sparseNode m d zeros.tail (2 * j)).toNat fun l =>
        eager (sparseNode m d zeros.tail (2 * j + 1)).toNat fun r => hashPair (BitVec.ofNat 256 l) (BitVec.ofNat 256 r)
    else zeros.headD 0

/-- `MerkleRoot(Mem)` of R61. -/
@[irreducible] def merkleRoot (m : Memory) : Bytes32 := sparseNode m merkleDepth (zeroNodes merkleDepth) 0

/-- The walk of R64 and R65: folds a node with its siblings, deepest first, by the path bits of the leaf index, lowest
first: bit 0 hashes `node ‖ sibling`, bit 1 `sibling ‖ node`. -/
def foldRoot : Bytes32 → List Bytes32 → Nat → Bytes32
  | node, [], _ => node
  | node, sib :: sibs, path =>
    foldRoot (if path % 2 = 0 then hashPair node sib else hashPair sib node) sibs (path / 2)

/-! ### What an honest host supplies (R76) -/

/-- The siblings on the path of leaf `j`: word `1 + i` of an honest block is `node(i, (j >> i) xor 1)`. -/
def honestSiblings (m : Memory) (j : Nat) : List Bytes32 :=
  (List.range merkleDepth).map (fun i => merkleNode m i ((j >>> i) ^^^ 1))

end Sys2Proof.Machine
end

