-- ==== Sys2Proof/Machine/Record.lean ====
section
/-! DEFINITION. The 362-byte form of the state record (10_state.md R20 to R22), the record of a state, and its hash (R44). -/

namespace Sys2Proof.Machine

/-- The `n` bytes of an integer, least significant first (R20). -/
def leBytes (n value : Nat) : List Byte := (List.range n).map (valueByte value)

/-- The record as bytes, the fields at the offsets of R20. The 32-byte fields are byte strings, byte 0 first
(R21, R22). -/
def Record.toBytes (r : Record) : List Byte :=
  bytes32List r.memRoot ++ bytes32List r.preimageKey ++ leBytes 8 r.preimageOffset.toNat ++ leBytes 8 r.pc.toNat ++
    [r.exitCode, r.exited] ++ leBytes 8 r.stepCounter.toNat ++ leBytes 8 r.heap.toNat ++
    leBytes 8 r.loadReservation.toNat ++ r.regs.toList.flatMap (fun v => leBytes 8 v.toNat)

/-- The u64 at an offset of a byte string. -/
def wordAt (bs : List Byte) (offset : Nat) : Word := BitVec.ofNat 64 (leValue 8 (fun j => bs.getD (offset + j) 0))

/-- The 32-byte string at an offset. -/
def bytes32At (bs : List Byte) (offset : Nat) : Bytes32 := bytes32Of (fun j => bs.getD (offset + j) 0)

/-- The record read from bytes, by the offsets of R20. -/
def Record.ofBytes (bs : List Byte) : Record where
  memRoot := bytes32At bs 0
  preimageKey := bytes32At bs 32
  preimageOffset := wordAt bs 64
  pc := wordAt bs 72
  exitCode := bs.getD 80 0
  exited := bs.getD 81 0
  stepCounter := wordAt bs 82
  heap := wordAt bs 90
  loadReservation := wordAt bs 98
  regs := Vector.ofFn (fun i => wordAt bs (106 + 8 * i.val))

/-- The 32 bytes of the field `memRoot` (R21). -/
def State.memRoot (s : State) : Bytes32 :=
  match s.root with
  | .ofMemory => merkleRoot s.mem
  | .digest root => root

/-- The record of a state (R20). -/
def State.toRecord (s : State) : Record := { s.toRecordTail with memRoot := s.memRoot }

/-- A state with the record `r` in it, as calldata brings it; everything else stays. -/
def State.withRecord (s : State) (r : Record) : State :=
  { s with toRecordTail := r.toRecordTail, root := .digest r.memRoot }

/-- The size of the record (R20). -/
def recordSize : Nat := 362

/-- The state hash (R44). -/
@[irreducible] def Record.hash (r : Record) : Bytes32 := keccak256 r.toBytes

end Sys2Proof.Machine
end

