-- ==== Sys2Proof/Machine/Ops.lean ====
section
/-! DEFINITION. The operations every meaning is built from: the three outcomes (00_scope.md R13), the fatal revert, the
register file, the program counter, the proof blocks, and the load-store unit of 20_memory.md. -/

namespace Sys2Proof.Machine

/-! ### Outcomes -/

/-- One of the three outcomes of R13, for an operation that gives an `α`. -/
abbrev Result (α : Type) := Host.Outcome α Fault Refusal

/-- Statements run in order and a `raise` ends the step (R12). -/
def andThen {α β : Type} (x : Result α) (f : α → Result β) : Result β :=
  match x with
  | .next a => f a
  | .fault e => .fault e
  | .refused r => .refused r

/-- TAKING AN EXCEPTION on this hardware is the fatal revert (R340, R344): nothing is saved, no mode changes, control
goes nowhere; the step ends with the code alone. There is no return from it (R345). -/
def revert {α : Type} (reason : Fault) : Result α := .fault reason

/-- The 32-bit code of a fatal revert (R341). -/
def Fault.code : Fault → BitVec 32
  | .unalignedMerkle => 0xBAD10AD0
  | .badProof => 0x0BADF00D
  | .invalidRegister => 0x00BAD4E9
  | .invalidCsrMode => 0xBADC0DE0
  | .invalidAmoSize => 0x00BADA70
  | .unknownAmoOp => 0x0F001A70
  | .unknownOpcode => 0xF001C0DE
  | .unknownSyscall => 0xF001CA11
  | .unknownRlimit => 0x000F0012

/-! ### Registers and the program counter -/

/-- `x[i]` (R30): `x[0]` is 0 (R31). -/
def getReg (s : State) (i : Reg) : Word := if i = 0#5 then 0 else s.regs[i.toNat]'i.isLt

/-- The register file after `x[i] <- v`: a write to x0 is dropped (R31). -/
def writeReg (regs : Vector Word 32) (i : Reg) (v : Word) : Vector Word 32 :=
  if i = 0#5 then regs else regs.set i.toNat v i.isLt

/-- `x[i] <- v`. -/
def setReg (s : State) (i : Reg) (v : Word) : State := { s with regs := writeReg s.regs i v }

/-- `pc <- t`. -/
def setPc (s : State) (t : Word) : State := { s with pc := t }

/-- `pc <- pc + 4` (R115). -/
def advance (s : State) : State := setPc s (s.pc + 4)

/-- `x[rd] <- v; pc <- pc + 4`, how most instructions end. -/
def writeBack (rd : Reg) (v : Word) (s : State) : Result State := .next (advance (setReg s rd v))

/-! ### Proof blocks -/

/-- The index that means "no proof provided" (R38). -/
def noProof : Nat := 0xFF

/-- Where proof block `p` starts in calldata (R36). -/
def blockStart (p : Nat) : Nat := 366 + 2048 * p

/-- `proof(p)[0]` and `proof(p)[1 … 59]` (R37, R63). Words 60 to 63 are not read. -/
def proofBlock (calldata : List Byte) (p : Nat) : Result (Bytes32 × List Bytes32) :=
  if p = noProof then .refused .noProofProvided
  else if calldata.length < blockStart p + 32 * 60 then .refused .missingProof
  else .next (bytes32At calldata (blockStart p),
    (List.range merkleDepth).map (fun i => bytes32At calldata (blockStart p + 32 * (1 + i))))

/-! ### Leaf primitives -/

/-- `addr & ~31`. -/
def leafBase (addr : Word) : Word := addr &&& ~~~31#64

/-- `addr & 31`. -/
def leafOffset (addr : Word) : Nat := (addr &&& 31#64).toNat

/-- The leaf index `addr >> 5` (R61). -/
def leafIndex (addr : Word) : Nat := (addr >>> 5).toNat

/-- Whether an honest block verifies: such a block folds to the root of the host's memory (R76(a)), which the read
compares with `memRoot` (R64). For a root that was committed from that memory the two are one. -/
def State.honestRead (s : State) : Bool :=
  match s.root with
  | .ofMemory => true
  | .digest root => merkleRoot s.mem == root

/-- `getMemoryB32(addr, p)`, the verified leaf read (R64). With calldata prepared the block is read from it, folded and
compared with `memRoot`. With none prepared the host has built the calldata with honest blocks from its memory
(R376, Assumption 4): leaf and folded root are then those of that memory, and are compared just so. -/
def getMemoryB32 (s : State) (addr : Word) (p : Nat) : Result Bytes32 :=
  if addr &&& 31#64 ≠ 0 then revert .unalignedMerkle
  else
    match s.inputs with
    | [] =>
      if p = noProof then .refused .noProofProvided
      else if s.honestRead then .next (leafAt s.mem (leafIndex addr))
      else revert .badProof
    | calldata :: _ =>
      andThen (proofBlock calldata p) fun block =>
        if foldRoot block.1 block.2 (leafIndex addr) = s.memRoot then .next block.1 else revert .badProof

/-- The state after the host's tree has taken the contents `m`, with its root in the record (R34, R76(b)). -/
def commitMemory (s : State) (m : Memory) : State := { s with mem := m, root := .ofMemory }

/-- `setMemoryB32(addr, newLeaf, p)`, the leaf write: `memRoot` becomes the root folded from the new leaf and the same
siblings, unverified (R65). `hostMem` is the host's copy of the memory after the write (R378); with no calldata
prepared the siblings are honest and the folded root is that memory's root (R76(b), Assumption 4). -/
def setMemoryB32 (s : State) (addr : Word) (newLeaf : Bytes32) (p : Nat) (hostMem : Memory) : Result State :=
  if addr &&& 31#64 ≠ 0 then revert .unalignedMerkle
  else
    match s.inputs with
    | [] => if p = noProof then .refused .noProofProvided else .next (commitMemory s hostMem)
    | calldata :: _ =>
      andThen (proofBlock calldata p) fun block =>
        .next { s with mem := hostMem, root := .digest (foldRoot newLeaf block.2 (leafIndex addr)) }

/-- Reads a leaf with verification, replaces its bytes `off … off + n - 1` by `f 0 … f (n-1)` and writes it back. -/
def patchMemory (s : State) (leafAddr : Word) (off n : Nat) (f : Nat → Byte) (p : Nat) : Result State :=
  andThen (getMemoryB32 s leafAddr p) fun leaf =>
    setMemoryB32 s leafAddr (patchLeaf leaf off n f) p (s.mem.store (leafAddr + BitVec.ofNat 64 off) f n)

/-! ### Byte-granular access -/

/-- The address of the last byte of an access, whose leaf is the right one (R66, R70). -/
def lastByte (addr : Word) (size : Nat) : Word := addr + BitVec.ofNat 64 size - 1

/-- `cat[k]`, a byte of `left ‖ right` (R66). -/
def catByte (left right : Bytes32) (k : Nat) : Byte := if k < 32 then byteOf left k else byteOf right (k - 32)

/-- The value of `size` bytes from offset `off` of `left ‖ right`, sign-extended if `signed` (R66). -/
def loadedValue (left right : Bytes32) (off size : Nat) (signed : Bool) : Word :=
  let v := BitVec.ofNat 64 (leValue size (fun j => catByte left right (off + j)))
  if signed then sext (8 * size) v else v

/-- `loadMem(addr, size, signed, pL, pR)` (R66). `pR` is not consulted when one leaf holds the access (R74). -/
def loadMem (s : State) (addr : Word) (size : Nat) (signed : Bool) (pL pR : Nat) : Result Word :=
  andThen (getMemoryB32 s (leafBase addr) pL) fun left =>
    if leafBase (lastByte addr size) = leafBase addr then .next (loadedValue left left (leafOffset addr) size signed)
    else
      andThen (getMemoryB32 s (leafBase (lastByte addr size)) pR) fun right =>
        .next (loadedValue left right (leafOffset addr) size signed)

/-- `storeMem(addr, size, value, pL, pR)` (R67): the left leaf is written back before the right leaf is read, so the
right leaf is verified against the new root. -/
def storeMem (s : State) (addr : Word) (size value pL pR : Nat) : Result State :=
  let nL := min size (32 - leafOffset addr)
  andThen (patchMemory s (leafBase addr) (leafOffset addr) nL (valueByte value) pL) fun s' =>
    if leafBase (lastByte addr size) = leafBase addr then .next s'
    else patchMemory s' (leafBase (lastByte addr size)) 0 (size - nL) (fun j => valueByte value (nL + j)) pR

/-! ### The proof pairs of R73 -/

/-- The left (or only) block of every data access. -/
def dataLeft : Nat := 1
/-- The right block of loads, stores, the loads of atomics and the syscall stores. -/
def dataRight : Nat := 2
/-- The right block of the stores of SC and of AMOs. -/
def atomicRight : Nat := 3

/-! ### The oracle port -/

/-- One query (R39): the tabled answer if there is one, else the opaque oracle's. -/
def oracleRead (s : State) (key : Bytes32) (offset : Word) : OracleAnswer :=
  match s.oracleTable.find? (fun e => e.key == key && e.offset == offset) with
  | some e => e.answer
  | none => Config.oracle key offset

end Sys2Proof.Machine
end

