-- ==== Sys2Proof/Machine/Atomic.lean ====
section
/-! DEFINITION. Atomic instructions, opcode `0x2F`, 48_atomics.md. -/

namespace Sys2Proof.Machine

/-! ### Reservation, load-reserved and store-conditional -/

/-- The reservation after LR and SC (R302). -/
def setReservation (s : State) (addr : Word) : State := { s with loadReservation := addr }

/-- LR (R303, R304): load, write `rd`, reserve the exact address. -/
def loadReserved (rd rs1 : Reg) (size : Nat) (s : State) : Result State :=
  andThen (loadMem s (getReg s rs1) size true dataLeft dataRight) fun v =>
    .next (advance (setReservation (setReg s rd v) (getReg s rs1)))

/-- SC (R305, R306): store if the address equals the reservation, `rd` 0 or 1, and the reservation cleared either
way. -/
def storeConditional (rd rs1 rs2 : Reg) (size : Nat) (s : State) : Result State :=
  if getReg s rs1 = s.loadReservation then
    andThen (storeMem s (getReg s rs1) size (getReg s rs2).toNat dataLeft atomicRight) fun s' =>
      .next (advance (setReservation (setReg s' rd 0) 0))
  else .next (advance (setReservation (setReg s rd 1) 0))

/-- The common AMO rule (R307): `src` is the operand after the sign extension of the `.W` forms. -/
def atomicUpdate (rd rs1 : Reg) (size : Nat) (src : Word) (f : Word → Word → Word) (s : State) : Result State :=
  andThen (loadMem s (getReg s rs1) size true dataLeft dataRight) fun old =>
    andThen (storeMem s (getReg s rs1) size (f old src).toNat dataLeft atomicRight) fun s' =>
      .next (advance (setReg s' rd old))

/-- The operand of a `.W` AMO, `sext_32(x[rs2])` (R307). -/
def amoOperandW (s : State) (rs2 : Reg) : Word := sext32 (low32 (getReg s rs2))

/-! ### The functions `f_OP` (R308 to R325, R328) -/

/-- The new value alone. -/
def amoSwap (_old src : Word) : Word := src
/-- Sum modulo 2^64. -/
def amoAdd (old src : Word) : Word := old + src
/-- Exclusive or. -/
def amoXor (old src : Word) : Word := old ^^^ src
/-- And. -/
def amoAnd (old src : Word) : Word := old &&& src
/-- Or. -/
def amoOr (old src : Word) : Word := old ||| src
/-- Signed minimum. -/
def amoMin (old src : Word) : Word := if ltSigned old src then old else src
/-- Signed maximum. -/
def amoMax (old src : Word) : Word := if ltSigned src old then old else src
/-- Unsigned minimum. -/
def amoMinu (old src : Word) : Word := if ltUnsigned old src then old else src
/-- Unsigned maximum. -/
def amoMaxu (old src : Word) : Word := if ltUnsigned src old then old else src

/-! ### The instructions; `aq`, `rl` and the `rs2` of LR are ignored (R112, R327) -/

/-- LR.W (R303). -/
def execLrW (rd rs1 _rs2 : Reg) (_aq _rl : BitVec 1) (s : State) : Result State := loadReserved rd rs1 4 s

/-- LR.D (R304). -/
def execLrD (rd rs1 _rs2 : Reg) (_aq _rl : BitVec 1) (s : State) : Result State := loadReserved rd rs1 8 s

/-- SC.W (R305). -/
def execScW (rd rs1 rs2 : Reg) (_aq _rl : BitVec 1) (s : State) : Result State := storeConditional rd rs1 rs2 4 s

/-- SC.D (R306). -/
def execScD (rd rs1 rs2 : Reg) (_aq _rl : BitVec 1) (s : State) : Result State := storeConditional rd rs1 rs2 8 s

/-- AMOSWAP.W (R308). -/
def execAmoswapW (rd rs1 rs2 : Reg) (_aq _rl : BitVec 1) (s : State) : Result State :=
  atomicUpdate rd rs1 4 (amoOperandW s rs2) amoSwap s

/-- AMOADD.W (R309). -/
def execAmoaddW (rd rs1 rs2 : Reg) (_aq _rl : BitVec 1) (s : State) : Result State :=
  atomicUpdate rd rs1 4 (amoOperandW s rs2) amoAdd s

/-- AMOXOR.W (R310). -/
def execAmoxorW (rd rs1 rs2 : Reg) (_aq _rl : BitVec 1) (s : State) : Result State :=
  atomicUpdate rd rs1 4 (amoOperandW s rs2) amoXor s

/-- AMOAND.W (R311). -/
def execAmoandW (rd rs1 rs2 : Reg) (_aq _rl : BitVec 1) (s : State) : Result State :=
  atomicUpdate rd rs1 4 (amoOperandW s rs2) amoAnd s

/-- AMOOR.W (R312). -/
def execAmoorW (rd rs1 rs2 : Reg) (_aq _rl : BitVec 1) (s : State) : Result State :=
  atomicUpdate rd rs1 4 (amoOperandW s rs2) amoOr s

/-- AMOMIN.W (R313). -/
def execAmominW (rd rs1 rs2 : Reg) (_aq _rl : BitVec 1) (s : State) : Result State :=
  atomicUpdate rd rs1 4 (amoOperandW s rs2) amoMin s

/-- AMOMAX.W (R314). -/
def execAmomaxW (rd rs1 rs2 : Reg) (_aq _rl : BitVec 1) (s : State) : Result State :=
  atomicUpdate rd rs1 4 (amoOperandW s rs2) amoMax s

/-- AMOMINU.W (R315). -/
def execAmominuW (rd rs1 rs2 : Reg) (_aq _rl : BitVec 1) (s : State) : Result State :=
  atomicUpdate rd rs1 4 (amoOperandW s rs2) amoMinu s

/-- AMOMAXU.W (R316). -/
def execAmomaxuW (rd rs1 rs2 : Reg) (_aq _rl : BitVec 1) (s : State) : Result State :=
  atomicUpdate rd rs1 4 (amoOperandW s rs2) amoMaxu s

/-- AMOSWAP.D (R317). -/
def execAmoswapD (rd rs1 rs2 : Reg) (_aq _rl : BitVec 1) (s : State) : Result State :=
  atomicUpdate rd rs1 8 (getReg s rs2) amoSwap s

/-- AMOADD.D (R318). -/
def execAmoaddD (rd rs1 rs2 : Reg) (_aq _rl : BitVec 1) (s : State) : Result State :=
  atomicUpdate rd rs1 8 (getReg s rs2) amoAdd s

/-- AMOXOR.D (R319). -/
def execAmoxorD (rd rs1 rs2 : Reg) (_aq _rl : BitVec 1) (s : State) : Result State :=
  atomicUpdate rd rs1 8 (getReg s rs2) amoXor s

/-- AMOAND.D (R320). -/
def execAmoandD (rd rs1 rs2 : Reg) (_aq _rl : BitVec 1) (s : State) : Result State :=
  atomicUpdate rd rs1 8 (getReg s rs2) amoAnd s

/-- AMOOR.D (R321). -/
def execAmoorD (rd rs1 rs2 : Reg) (_aq _rl : BitVec 1) (s : State) : Result State :=
  atomicUpdate rd rs1 8 (getReg s rs2) amoOr s

/-- AMOMIN.D (R322). -/
def execAmominD (rd rs1 rs2 : Reg) (_aq _rl : BitVec 1) (s : State) : Result State :=
  atomicUpdate rd rs1 8 (getReg s rs2) amoMin s

/-- AMOMAX.D (R323). -/
def execAmomaxD (rd rs1 rs2 : Reg) (_aq _rl : BitVec 1) (s : State) : Result State :=
  atomicUpdate rd rs1 8 (getReg s rs2) amoMax s

/-- AMOMINU.D (R324). -/
def execAmominuD (rd rs1 rs2 : Reg) (_aq _rl : BitVec 1) (s : State) : Result State :=
  atomicUpdate rd rs1 8 (getReg s rs2) amoMinu s

/-- AMOMAXU.D (R325). -/
def execAmomaxuD (rd rs1 rs2 : Reg) (_aq _rl : BitVec 1) (s : State) : Result State :=
  atomicUpdate rd rs1 8 (getReg s rs2) amoMaxu s

end Sys2Proof.Machine
end

