-- ==== Sys2Proof/Machine/Branch.lean ====
section
/-! DEFINITION. Conditional branches (opcode `0x63`), 41_branches.md. -/

namespace Sys2Proof.Machine

/-- The common branch rule (R160): taken, `pc <- pc + immB`; else `pc <- pc + 4`. -/
def branchIf (taken : Bool) (imm : BitVec 13) (s : State) : Result State :=
  .next (if taken then setPc s (s.pc + immB imm) else advance s)

/-- BEQ (R161). -/
def execBeq (rs1 rs2 : Reg) (imm : BitVec 13) (s : State) : Result State :=
  branchIf (getReg s rs1 == getReg s rs2) imm s

/-- BNE (R162). -/
def execBne (rs1 rs2 : Reg) (imm : BitVec 13) (s : State) : Result State :=
  branchIf (getReg s rs1 != getReg s rs2) imm s

/-- BLT (R163). -/
def execBlt (rs1 rs2 : Reg) (imm : BitVec 13) (s : State) : Result State :=
  branchIf (ltSigned (getReg s rs1) (getReg s rs2)) imm s

/-- BGE (R164). -/
def execBge (rs1 rs2 : Reg) (imm : BitVec 13) (s : State) : Result State :=
  branchIf (!ltSigned (getReg s rs1) (getReg s rs2)) imm s

/-- BLTU (R165). -/
def execBltu (rs1 rs2 : Reg) (imm : BitVec 13) (s : State) : Result State :=
  branchIf (ltUnsigned (getReg s rs1) (getReg s rs2)) imm s

/-- BGEU (R166). -/
def execBgeu (rs1 rs2 : Reg) (imm : BitVec 13) (s : State) : Result State :=
  branchIf (!ltUnsigned (getReg s rs1) (getReg s rs2)) imm s

end Sys2Proof.Machine
end

