-- ==== Sys2Proof/Machine/FenceFp.lean ====
section
/-! DEFINITION. FENCE, FENCE.I (opcode `0x0F`) and the ignored floating-point opcodes, 49_fence_fp.md. -/

namespace Sys2Proof.Machine

/-- An instruction whose only effect is `pc <- pc + 4`. -/
def noOperation (s : State) : Result State := .next (advance s)

/-- FENCE: nothing is ever out of order (R331). -/
def execFence (_rd _rs1 : Reg) (_imm : BitVec 12) (s : State) : Result State := noOperation s

/-- FENCE.I: a fetch reads through the current `memRoot` anyway (R332). -/
def execFenceI (_rd _rs1 : Reg) (_imm : BitVec 12) (s : State) : Result State := noOperation s

/-- Opcode `0x0F`, `funct3` 2 to 7 (R336). -/
def execRsvMiscmem (_f3 : BitVec 3) (_rd _rs1 : Reg) (_imm : BitVec 12) (s : State) : Result State := noOperation s

/-- FP loads, opcode `0x07`: no memory access (R333). -/
def execFpLoad (_rest : BitVec 25) (s : State) : Result State := noOperation s

/-- FP stores, opcode `0x27`: no memory access (R334). -/
def execFpStore (_rest : BitVec 25) (s : State) : Result State := noOperation s

/-- FP operations, opcode `0x53`: no register is written (R335). -/
def execFpOp (_rest : BitVec 25) (s : State) : Result State := noOperation s

end Sys2Proof.Machine
end

