-- ==== Sys2Proof/Machine/IntImm.lean ====
section
/-! DEFINITION. Register-immediate integer instructions (opcodes `0x13` and `0x1B`), 42_int_imm.md. -/

namespace Sys2Proof.Machine

/-- ADDI (R171). -/
def execAddi (rd rs1 : Reg) (imm : BitVec 12) (s : State) : Result State :=
  writeBack rd (getReg s rs1 + immI imm) s

/-- SLTI (R172). -/
def execSlti (rd rs1 : Reg) (imm : BitVec 12) (s : State) : Result State :=
  writeBack rd (boolWord (ltSigned (getReg s rs1) (immI imm))) s

/-- SLTIU (R173). -/
def execSltiu (rd rs1 : Reg) (imm : BitVec 12) (s : State) : Result State :=
  writeBack rd (boolWord (ltUnsigned (getReg s rs1) (immI imm))) s

/-- XORI (R174). -/
def execXori (rd rs1 : Reg) (imm : BitVec 12) (s : State) : Result State :=
  writeBack rd (getReg s rs1 ^^^ immI imm) s

/-- ORI (R175). -/
def execOri (rd rs1 : Reg) (imm : BitVec 12) (s : State) : Result State :=
  writeBack rd (getReg s rs1 ||| immI imm) s

/-- ANDI (R176). -/
def execAndi (rd rs1 : Reg) (imm : BitVec 12) (s : State) : Result State :=
  writeBack rd (getReg s rs1 &&& immI imm) s

/-- SLLI (R177). -/
def execSlli (rd rs1 : Reg) (shamt : BitVec 6) (s : State) : Result State :=
  writeBack rd (getReg s rs1 <<< shamt.toNat) s

/-- SRLI (R178). -/
def execSrli (rd rs1 : Reg) (shamt : BitVec 6) (s : State) : Result State :=
  writeBack rd (getReg s rs1 >>> shamt.toNat) s

/-- SRAI (R179). -/
def execSrai (rd rs1 : Reg) (shamt : BitVec 6) (s : State) : Result State :=
  writeBack rd ((getReg s rs1).sshiftRight shamt.toNat) s

/-- ADDIW (R181). -/
def execAddiw (rd rs1 : Reg) (imm : BitVec 12) (s : State) : Result State :=
  writeBack rd (sext32 (low32 (getReg s rs1 + immI imm))) s

/-- SLLIW (R182). -/
def execSlliw (rd rs1 : Reg) (shamt : BitVec 5) (s : State) : Result State :=
  writeBack rd (sext32 (low32 (getReg s rs1) <<< shamt.toNat)) s

/-- SRLIW (R183). -/
def execSrliw (rd rs1 : Reg) (shamt : BitVec 5) (s : State) : Result State :=
  writeBack rd (sext32 (low32 (getReg s rs1) >>> shamt.toNat)) s

/-- SRAIW (R184). -/
def execSraiw (rd rs1 : Reg) (shamt : BitVec 5) (s : State) : Result State :=
  writeBack rd (sext32 ((low32 (getReg s rs1)).sshiftRight shamt.toNat)) s

end Sys2Proof.Machine
end

