-- ==== Sys2Proof/Machine/IntReg.lean ====
section
/-! DEFINITION. Register-register integer instructions (opcodes `0x33` and `0x3B`, base set), 43_int_reg.md. -/

namespace Sys2Proof.Machine

/-- ADD (R191). -/
def execAdd (rd rs1 rs2 : Reg) (s : State) : Result State :=
  writeBack rd (getReg s rs1 + getReg s rs2) s

/-- SUB (R192). -/
def execSub (rd rs1 rs2 : Reg) (s : State) : Result State :=
  writeBack rd (getReg s rs1 - getReg s rs2) s

/-- SLL (R193). -/
def execSll (rd rs1 rs2 : Reg) (s : State) : Result State :=
  writeBack rd (getReg s rs1 <<< shiftAmount64 (getReg s rs2)) s

/-- SLT (R194). -/
def execSlt (rd rs1 rs2 : Reg) (s : State) : Result State :=
  writeBack rd (boolWord (ltSigned (getReg s rs1) (getReg s rs2))) s

/-- SLTU (R195). -/
def execSltu (rd rs1 rs2 : Reg) (s : State) : Result State :=
  writeBack rd (boolWord (ltUnsigned (getReg s rs1) (getReg s rs2))) s

/-- XOR (R196). -/
def execXor (rd rs1 rs2 : Reg) (s : State) : Result State :=
  writeBack rd (getReg s rs1 ^^^ getReg s rs2) s

/-- SRL (R197). -/
def execSrl (rd rs1 rs2 : Reg) (s : State) : Result State :=
  writeBack rd (getReg s rs1 >>> shiftAmount64 (getReg s rs2)) s

/-- SRA (R198). -/
def execSra (rd rs1 rs2 : Reg) (s : State) : Result State :=
  writeBack rd ((getReg s rs1).sshiftRight (shiftAmount64 (getReg s rs2))) s

/-- OR (R199). -/
def execOr (rd rs1 rs2 : Reg) (s : State) : Result State :=
  writeBack rd (getReg s rs1 ||| getReg s rs2) s

/-- AND (R200). -/
def execAnd (rd rs1 rs2 : Reg) (s : State) : Result State :=
  writeBack rd (getReg s rs1 &&& getReg s rs2) s

/-- ADDW (R202). -/
def execAddw (rd rs1 rs2 : Reg) (s : State) : Result State :=
  writeBack rd (sext32 (low32 (getReg s rs1 + getReg s rs2))) s

/-- SUBW (R203). -/
def execSubw (rd rs1 rs2 : Reg) (s : State) : Result State :=
  writeBack rd (sext32 (low32 (getReg s rs1 - getReg s rs2))) s

/-- SLLW (R204). -/
def execSllw (rd rs1 rs2 : Reg) (s : State) : Result State :=
  writeBack rd (sext32 (low32 (getReg s rs1) <<< shiftAmount32 (getReg s rs2))) s

/-- SRLW (R205). -/
def execSrlw (rd rs1 rs2 : Reg) (s : State) : Result State :=
  writeBack rd (sext32 (low32 (getReg s rs1) >>> shiftAmount32 (getReg s rs2))) s

/-- SRAW (R206). -/
def execSraw (rd rs1 rs2 : Reg) (s : State) : Result State :=
  writeBack rd (sext32 ((low32 (getReg s rs1)).sshiftRight (shiftAmount32 (getReg s rs2)))) s

end Sys2Proof.Machine
end

