-- ==== Sys2Proof/Machine/LoadStore.lean ====
section
/-! DEFINITION. Loads (opcode `0x03`) and stores (opcode `0x23`), 40_loads_stores.md. -/

namespace Sys2Proof.Machine

/-- The common load rule (R140): `x[rd] <- loadMem(addr, size, signed, 1, 2); pc <- pc + 4`. -/
def loadInto (rd : Reg) (addr : Word) (size : Nat) (signed : Bool) (s : State) : Result State :=
  andThen (loadMem s addr size signed dataLeft dataRight) fun v => writeBack rd v s

/-- The common store rule (R150): `storeMem(addr, size, value, 1, 2); pc <- pc + 4`. -/
def storeFrom (addr : Word) (size value : Nat) (s : State) : Result State :=
  andThen (storeMem s addr size value dataLeft dataRight) fun s' => .next (advance s')

/-- The effective address of a load, `x[rs1] + immI` (R140). -/
def loadAddress (rs1 : Reg) (imm : BitVec 12) (s : State) : Word := getReg s rs1 + immI imm

/-- The effective address of a store, `x[rs1] + immS` (R150). -/
def storeAddress (rs1 : Reg) (imm : BitVec 12) (s : State) : Word := getReg s rs1 + immS imm

/-- LB (R141). -/
def execLb (rd rs1 : Reg) (imm : BitVec 12) (s : State) : Result State :=
  loadInto rd (loadAddress rs1 imm s) 1 true s

/-- LH (R142). -/
def execLh (rd rs1 : Reg) (imm : BitVec 12) (s : State) : Result State :=
  loadInto rd (loadAddress rs1 imm s) 2 true s

/-- LW (R143). -/
def execLw (rd rs1 : Reg) (imm : BitVec 12) (s : State) : Result State :=
  loadInto rd (loadAddress rs1 imm s) 4 true s

/-- LD: sign extension from bit 63 changes nothing (R144). -/
def execLd (rd rs1 : Reg) (imm : BitVec 12) (s : State) : Result State :=
  loadInto rd (loadAddress rs1 imm s) 8 true s

/-- LBU (R145). -/
def execLbu (rd rs1 : Reg) (imm : BitVec 12) (s : State) : Result State :=
  loadInto rd (loadAddress rs1 imm s) 1 false s

/-- LHU (R146). -/
def execLhu (rd rs1 : Reg) (imm : BitVec 12) (s : State) : Result State :=
  loadInto rd (loadAddress rs1 imm s) 2 false s

/-- LWU (R147). -/
def execLwu (rd rs1 : Reg) (imm : BitVec 12) (s : State) : Result State :=
  loadInto rd (loadAddress rs1 imm s) 4 false s

/-- Opcode `0x03` with `funct3 = 7`: an 8-byte unsigned load (R148). -/
def execRsvLoad7 (rd rs1 : Reg) (imm : BitVec 12) (s : State) : Result State :=
  loadInto rd (loadAddress rs1 imm s) 8 false s

/-- SB (R151). -/
def execSb (rs1 rs2 : Reg) (imm : BitVec 12) (s : State) : Result State :=
  storeFrom (storeAddress rs1 imm s) 1 (getReg s rs2).toNat s

/-- SH (R152). -/
def execSh (rs1 rs2 : Reg) (imm : BitVec 12) (s : State) : Result State :=
  storeFrom (storeAddress rs1 imm s) 2 (getReg s rs2).toNat s

/-- SW (R153). -/
def execSw (rs1 rs2 : Reg) (imm : BitVec 12) (s : State) : Result State :=
  storeFrom (storeAddress rs1 imm s) 4 (getReg s rs2).toNat s

/-- SD (R154). -/
def execSd (rs1 rs2 : Reg) (imm : BitVec 12) (s : State) : Result State :=
  storeFrom (storeAddress rs1 imm s) 8 (getReg s rs2).toNat s

end Sys2Proof.Machine
end

