-- ==== Sys2Proof/Machine/MulDiv.lean ====
section
/-! DEFINITION. Integer multiply and divide (`funct7 = 1` under opcodes `0x33` and `0x3B`), 44_muldiv.md. No operand raises anything. -/

namespace Sys2Proof.Machine

/-! ### The laws of R225, at any width: `a` the dividend, `b` the divisor -/

/-- Signed quotient: toward zero; all ones by zero; `INT_MIN / -1 = INT_MIN`. -/
def divSigned {w : Nat} (a b : BitVec w) : BitVec w :=
  if b = 0 then BitVec.allOnes w
  else if a = BitVec.intMin w ∧ b = BitVec.allOnes w then a
  else BitVec.ofInt w (a.toInt.tdiv b.toInt)

/-- Signed remainder: sign of the dividend; the dividend by zero; 0 for `INT_MIN / -1`. -/
def remSigned {w : Nat} (a b : BitVec w) : BitVec w :=
  if b = 0 then a
  else if a = BitVec.intMin w ∧ b = BitVec.allOnes w then 0
  else BitVec.ofInt w (a.toInt - b.toInt * a.toInt.tdiv b.toInt)

/-- Unsigned quotient; all ones by zero. -/
def divUnsigned {w : Nat} (a b : BitVec w) : BitVec w :=
  if b = 0 then BitVec.allOnes w else BitVec.ofNat w (a.toNat / b.toNat)

/-- Unsigned remainder; the dividend by zero. -/
def remUnsigned {w : Nat} (a b : BitVec w) : BitVec w :=
  if b = 0 then a else BitVec.ofNat w (a.toNat % b.toNat)

/-- Bits 127 to 64 of an exact product (R226). -/
def highHalf (product : Int) : Word := (BitVec.ofInt 128 product).extractLsb' 64 64

/-- MUL (R211). -/
def execMul (rd rs1 rs2 : Reg) (s : State) : Result State :=
  writeBack rd (getReg s rs1 * getReg s rs2) s

/-- MULH (R212). -/
def execMulh (rd rs1 rs2 : Reg) (s : State) : Result State :=
  writeBack rd (highHalf ((getReg s rs1).toInt * (getReg s rs2).toInt)) s

/-- MULHSU (R213). -/
def execMulhsu (rd rs1 rs2 : Reg) (s : State) : Result State :=
  writeBack rd (highHalf ((getReg s rs1).toInt * ((getReg s rs2).toNat : Int))) s

/-- MULHU (R214). -/
def execMulhu (rd rs1 rs2 : Reg) (s : State) : Result State :=
  writeBack rd (highHalf (((getReg s rs1).toNat : Int) * ((getReg s rs2).toNat : Int))) s

/-- DIV (R215). -/
def execDiv (rd rs1 rs2 : Reg) (s : State) : Result State :=
  writeBack rd (divSigned (getReg s rs1) (getReg s rs2)) s

/-- DIVU (R216). -/
def execDivu (rd rs1 rs2 : Reg) (s : State) : Result State :=
  writeBack rd (divUnsigned (getReg s rs1) (getReg s rs2)) s

/-- REM (R217). -/
def execRem (rd rs1 rs2 : Reg) (s : State) : Result State :=
  writeBack rd (remSigned (getReg s rs1) (getReg s rs2)) s

/-- REMU (R218). -/
def execRemu (rd rs1 rs2 : Reg) (s : State) : Result State :=
  writeBack rd (remUnsigned (getReg s rs1) (getReg s rs2)) s

/-- MULW (R219, R220). -/
def execMulw (rd rs1 rs2 : Reg) (s : State) : Result State :=
  writeBack rd (sext32 ((low32 (getReg s rs1)) * (low32 (getReg s rs2)))) s

/-- DIVW (R221). -/
def execDivw (rd rs1 rs2 : Reg) (s : State) : Result State :=
  writeBack rd (sext32 (divSigned (low32 (getReg s rs1)) (low32 (getReg s rs2)))) s

/-- DIVUW (R222). -/
def execDivuw (rd rs1 rs2 : Reg) (s : State) : Result State :=
  writeBack rd (sext32 (divUnsigned (low32 (getReg s rs1)) (low32 (getReg s rs2)))) s

/-- REMW (R223). -/
def execRemw (rd rs1 rs2 : Reg) (s : State) : Result State :=
  writeBack rd (sext32 (remSigned (low32 (getReg s rs1)) (low32 (getReg s rs2)))) s

/-- REMUW (R224). -/
def execRemuw (rd rs1 rs2 : Reg) (s : State) : Result State :=
  writeBack rd (sext32 (remUnsigned (low32 (getReg s rs1)) (low32 (getReg s rs2)))) s

end Sys2Proof.Machine
end

