-- ==== Sys2Proof/Machine/Reserved.lean ====
section
/-! DEFINITION. The rows of the opcode table that end in a fatal revert or have no behaviour (30_encoding.md R109, R111). -/

namespace Sys2Proof.Machine

/-! ### Fatal reverts -/

/-- Any opcode that is none of the 17 (R109). -/
def execRsvUnknown (_word : BitVec 32) (_s : State) : Result State := revert .unknownOpcode

/-- Opcode `0x2F` with `funct3` 0 or 1, whatever `op` is (R301). -/
def execRsvAmoSize (_op : BitVec 5) (_f3 : BitVec 3) (_rd _rs1 _rs2 : Reg) (_aq _rl : BitVec 1) (_s : State) :
    Result State :=
  revert .invalidAmoSize

/-- Opcode `0x2F` with an unlisted `op` (R301). -/
def execRsvAmoOp (_op : BitVec 5) (_f3 : BitVec 3) (_rd _rs1 _rs2 : Reg) (_aq _rl : BitVec 1) (_s : State) :
    Result State :=
  revert .unknownAmoOp

/-! ### Words to which the spec gives neither an effect nor a code (R111): refused -/

/-- Opcode `0x23`, `funct3` 4 to 7 (R155). -/
def execRsvStore (_f3 : BitVec 3) (_rs1 _rs2 : Reg) (_imm : BitVec 12) (_s : State) : Result State :=
  .refused .reservedStore

/-- Opcode `0x63`, `funct3` 2 or 3 (R167). -/
def execRsvBranch (_f3 : BitVec 3) (_rs1 _rs2 : Reg) (_imm : BitVec 13) (_s : State) : Result State :=
  .refused .reservedBranch

/-- Opcode `0x13`, unlisted shift codes (R185). -/
def execRsvOpImm (_f6 : BitVec 6) (_f3 : BitVec 3) (_rd _rs1 : Reg) (_shamt : BitVec 6) (_s : State) :
    Result State :=
  .refused .reservedOpImm

/-- Opcode `0x1B`, unlisted codes (R186). -/
def execRsvOpImm32 (_f7 : BitVec 7) (_f3 : BitVec 3) (_rd _rs1 : Reg) (_shamt : BitVec 5) (_s : State) :
    Result State :=
  .refused .reservedOpImm32

/-- Opcode `0x33`, unlisted codes (R207). -/
def execRsvOp (_f7 : BitVec 7) (_f3 : BitVec 3) (_rd _rs1 _rs2 : Reg) (_s : State) : Result State :=
  .refused .reservedOp

/-- Opcode `0x3B`, unlisted codes (R208). -/
def execRsvOp32 (_f7 : BitVec 7) (_f3 : BitVec 3) (_rd _rs1 _rs2 : Reg) (_s : State) : Result State :=
  .refused .reservedOp32

/-- Opcode `0x2F`, `funct3` 4 to 7 (R326). -/
def execRsvAmoWidth (_op : BitVec 5) (_f3 : BitVec 3) (_rd _rs1 _rs2 : Reg) (_aq _rl : BitVec 1) (_s : State) :
    Result State :=
  .refused .reservedAmoWidth

end Sys2Proof.Machine
end

