-- ==== Sys2Proof/Machine/Syscall.lean ====
section
/-! DEFINITION. The syscall dispatch engine and the pre-image oracle glue, 47_syscalls.md. A call is performed inside
the step of its ECALL; there is no trap. -/

namespace Sys2Proof.Machine

/-! ### The numbers of the interface (R260, R261, R264, R272, R273) -/

/-- Error number named EBADF. -/
def errBadf : Word := 0x4D
/-- Error number EINVAL. -/
def errInval : Word := 0x16
/-- Error number EACCES. -/
def errAcces : Word := 0xD
/-- The result of a failing call. -/
def minusOne : Word := 0xFFFFFFFFFFFFFFFF
/-- What brk answers. -/
def brkValue : Word := 0x40000000
/-- `tv_sec`. -/
def clockSeconds : Nat := 1337
/-- `tv_nsec`. -/
def clockNanoseconds : Nat := 1337000000000
/-- RLIMIT_NOFILE. -/
def rlimitNofile : Word := 7
/-- Both limits of getrlimit. -/
def rlimitValue : Nat := 1024

/-! ### Arguments and result (R260, R261) -/

/-- The syscall number, x17. -/
def argA7 (s : State) : Word := getReg s 17
/-- The first argument, x10. -/
def argA0 (s : State) : Word := getReg s 10
/-- The second argument, x11. -/
def argA1 (s : State) : Word := getReg s 11
/-- The third argument, x12. -/
def argA2 (s : State) : Word := getReg s 12

/-- `x[10] <- n; x[11] <- err; pc <- pc + 4`, how every call but exit ends (R261). -/
def syscallReturn (n err : Word) (s : State) : Result State :=
  .next (advance (setReg (setReg s 10 n) 11 err))

/-! ### Calls without memory -/

/-- The end of the guest: `pc` and the registers stay (R262). -/
def exitWith (status : Word) (s : State) : Result State :=
  .next { s with exitCode := status.setWidth 8, exited := 1 }

/-- exit (R262). -/
def sysExit (s : State) : Result State := exitWith (argA0 s) s

/-- exit_group (R263). -/
def sysExitGroup (s : State) : Result State := exitWith (argA0 s) s

/-- brk (R264). -/
def sysBrk (s : State) : Result State := syscallReturn brkValue 0 s

/-- A length rounded up to whole 4096-byte pages, modulo 2^64 (R265). -/
def roundToPage (length : Word) : Word := (length + 4095) &&& ~~~4095#64

/-- mmap (R265). -/
def sysMmap (s : State) : Result State :=
  if argA0 s = 0 then syscallReturn s.heap 0 { s with heap := s.heap + roundToPage (argA1 s) }
  else syscallReturn (argA0 s) 0 s

/-- fcntl (R268): the command is tested before the descriptor. -/
def sysFcntl (s : State) : Result State :=
  if argA1 s = 3 then
    if argA0 s = 0 ∨ argA0 s = 3 ∨ argA0 s = 5 then syscallReturn 0 0 s
    else if argA0 s = 1 ∨ argA0 s = 2 ∨ argA0 s = 4 ∨ argA0 s = 6 then syscallReturn 1 0 s
    else syscallReturn minusOne errBadf s
  else syscallReturn minusOne errInval s

/-- openat (R269). -/
def sysOpenat (s : State) : Result State := syscallReturn minusOne errAcces s

/-- sched_getaffinity (R270). -/
def sysSchedGetaffinity (s : State) : Result State := syscallReturn 0 0 s

/-- rt_sigaction (R271). -/
def sysRtSigaction (s : State) : Result State := syscallReturn 0 0 s

/-- rt_sigprocmask (R274). -/
def sysRtSigprocmask (s : State) : Result State := syscallReturn 0 0 s

/-- sigaltstack (R275). -/
def sysSigaltstack (s : State) : Result State := syscallReturn 0 0 s

/-- gettid (R276). -/
def sysGettid (s : State) : Result State := syscallReturn 0 0 s

/-! ### Calls that write 16 bytes -/

/-- Two u64, the first at the lower address, as one 128-bit value (R272, R273). -/
def pairValue (first second : Nat) : Nat := first + second <<< 64

/-- clock_gettime (R272). -/
def sysClockGettime (s : State) : Result State :=
  andThen (storeMem s (argA1 s) 16 (pairValue clockSeconds clockNanoseconds) dataLeft dataRight) fun s' =>
    syscallReturn 0 0 s'

/-- getrlimit (R273): the resource is tested before the memory access. -/
def sysGetrlimit (s : State) : Result State :=
  if argA0 s ≠ rlimitNofile then revert .unknownRlimit
  else
    andThen (storeMem s (argA1 s) 16 (pairValue rlimitValue rlimitValue) dataLeft dataRight) fun s' =>
      syscallReturn 0 0 s'

/-! ### The pre-image oracle glue -/

/-- The number of bytes a glue call can move: the count, cut at the end of the leaf (R281, R282). -/
def clippedCount (addr count : Word) : Nat := min count.toNat (32 - leafOffset addr)

/-- The key with `n` bytes appended: shifted left by `8*n` bits, the bytes in the low end, in address order (R281). -/
def appendKey (key : Bytes32) (n : Nat) (f : Nat → Byte) : Bytes32 :=
  key <<< (8 * n) ||| BitVec.ofNat 256 (beValue n f)

/-- `writePreimageKey(addr, count)`: the new state and the count consumed (R281). -/
def writePreimageKey (s : State) (addr count : Word) : Result (State × Word) :=
  andThen (getMemoryB32 s (leafBase addr) dataLeft) fun leaf =>
    let n := clippedCount addr count
    .next ({ s with
      preimageKey := appendKey s.preimageKey n (fun j => byteOf leaf (leafOffset addr + j))
      preimageOffset := 0 }, BitVec.ofNat 64 n)

/-- `readPreimageValue(addr, count)`: the new state and the count delivered (R282). The oracle comes first; at the end
of the pre-image nothing else is touched. -/
def readPreimageValue (s : State) (addr count : Word) : Result (State × Word) :=
  match oracleRead s s.preimageKey s.preimageOffset with
  | .error => revert .badProof
  | .data chunk length =>
    if 32 < length.toNat then .refused .oracleLength
    else if length = 0 then .next (s, 0)
    else
      let n := min (clippedCount addr count) length.toNat
      andThen (patchMemory s (leafBase addr) (leafOffset addr) n (byteOf chunk) dataLeft) fun s' =>
        .next ({ s' with preimageOffset := s'.preimageOffset + BitVec.ofNat 64 n }, BitVec.ofNat 64 n)

/-- read (R266). -/
def sysRead (s : State) : Result State :=
  if argA0 s = 0 then syscallReturn 0 0 s
  else if argA0 s = 3 then syscallReturn (argA2 s) 0 s
  else if argA0 s = 5 then andThen (readPreimageValue s (argA1 s) (argA2 s)) fun r => syscallReturn r.2 0 r.1
  else syscallReturn minusOne errBadf s

/-- write (R267). -/
def sysWrite (s : State) : Result State :=
  if argA0 s = 1 ∨ argA0 s = 2 ∨ argA0 s = 4 then syscallReturn (argA2 s) 0 s
  else if argA0 s = 6 then andThen (writePreimageKey s (argA1 s) (argA2 s)) fun r => syscallReturn r.2 0 r.1
  else syscallReturn minusOne errBadf s

/-! ### Dispatch -/

/-- The dispatch on `a7`, compared as a full 64-bit value (R260, R277). -/
def syscall (s : State) : Result State :=
  if argA7 s = 93 then sysExit s
  else if argA7 s = 94 then sysExitGroup s
  else if argA7 s = 214 then sysBrk s
  else if argA7 s = 222 then sysMmap s
  else if argA7 s = 63 then sysRead s
  else if argA7 s = 64 then sysWrite s
  else if argA7 s = 25 then sysFcntl s
  else if argA7 s = 56 then sysOpenat s
  else if argA7 s = 123 then sysSchedGetaffinity s
  else if argA7 s = 134 then sysRtSigaction s
  else if argA7 s = 135 then sysRtSigprocmask s
  else if argA7 s = 132 then sysSigaltstack s
  else if argA7 s = 178 then sysGettid s
  else if argA7 s = 113 then sysClockGettime s
  else if argA7 s = 163 then sysGetrlimit s
  else revert .unknownSyscall

end Sys2Proof.Machine
end

