-- ==== Sys2Proof/Machine/System.lean ====
section
/-! DEFINITION. SYSTEM, opcode `0x73`: ECALL, EBREAK and the CSR instructions, 46_system_csr.md. -/

namespace Sys2Proof.Machine

/-- `readCSR` gives 0 for every number (R245). -/
def readCsr (_csr : BitVec 12) (_s : State) : Word := 0

/-- `writeCSR` does nothing (R245). -/
def writeCsr (_csr : BitVec 12) (_new : Word) (s : State) : State := s

/-- The common CSR rule (R245): read the old value, write `new old`, give `x[rd]` the old one. -/
def csrInstruction (rd : Reg) (csr : BitVec 12) (new : Word → Word) (s : State) : Result State :=
  writeBack rd (readCsr csr s) (writeCsr csr (new (readCsr csr s)) s)

/-- ECALL: the syscall engine performs the call inside the step; `rd` and `rs1` are not looked at (R241). -/
def execEcall (_rd _rs1 : Reg) (s : State) : Result State := syscall s

/-- EBREAK: a no-op (R243). -/
def execEbreak (_rd _rs1 : Reg) (s : State) : Result State := .next (advance s)

/-- The other words with `funct3 = 0`, URET, SRET, MRET, WFI and SFENCE.VMA among them: no-ops (R242, R243). -/
def execRsvSystem0 (_rd _rs1 : Reg) (_imm : BitVec 12) (s : State) : Result State := .next (advance s)

/-- CSRRW (R246). -/
def execCsrrw (rd rs1 : Reg) (csr : BitVec 12) (s : State) : Result State :=
  csrInstruction rd csr (fun _ => getReg s rs1) s

/-- CSRRS (R247). -/
def execCsrrs (rd rs1 : Reg) (csr : BitVec 12) (s : State) : Result State :=
  csrInstruction rd csr (fun old => old ||| getReg s rs1) s

/-- CSRRC (R248). -/
def execCsrrc (rd rs1 : Reg) (csr : BitVec 12) (s : State) : Result State :=
  csrInstruction rd csr (fun old => old &&& ~~~getReg s rs1) s

/-- CSRRWI (R249). -/
def execCsrrwi (rd : Reg) (uimm : BitVec 5) (csr : BitVec 12) (s : State) : Result State :=
  csrInstruction rd csr (fun _ => immCsr uimm) s

/-- CSRRSI (R250). -/
def execCsrrsi (rd : Reg) (uimm : BitVec 5) (csr : BitVec 12) (s : State) : Result State :=
  csrInstruction rd csr (fun old => old ||| immCsr uimm) s

/-- CSRRCI (R251). -/
def execCsrrci (rd : Reg) (uimm : BitVec 5) (csr : BitVec 12) (s : State) : Result State :=
  csrInstruction rd csr (fun old => old &&& ~~~immCsr uimm) s

/-- Opcode `0x73` with `funct3 = 4`: an invalid CSR mode (R252). -/
def execRsvSystem4 (_rd _rs1 : Reg) (_imm : BitVec 12) (_s : State) : Result State := revert .invalidCsrMode

end Sys2Proof.Machine
end

