-- ==== Sys2Proof/Machine/UpperJump.lean ====
section
/-! DEFINITION. LUI, AUIPC, JAL and JALR, 45_upper_jumps.md. -/

namespace Sys2Proof.Machine

/-- LUI (R230). -/
def execLui (rd : Reg) (imm : BitVec 20) (s : State) : Result State := writeBack rd (immU imm) s

/-- AUIPC (R231). -/
def execAuipc (rd : Reg) (imm : BitVec 20) (s : State) : Result State := writeBack rd (s.pc + immU imm) s

/-- A jump: `x[rd] <- pc + 4; pc <- target`, the target computed before `x[rd]` is written (R116). -/
def jumpTo (rd : Reg) (target : Word) (s : State) : Result State := .next (setPc (setReg s rd (s.pc + 4)) target)

/-- JAL (R232). -/
def execJal (rd : Reg) (imm : BitVec 21) (s : State) : Result State := jumpTo rd (s.pc + immJ imm) s

/-- JALR (R233): `funct3` is not tested; bit 0 of the target is cleared. -/
def execJalr (_f3 : BitVec 3) (rd rs1 : Reg) (imm : BitVec 12) (s : State) : Result State :=
  jumpTo rd ((getReg s rs1 + immI imm) &&& ~~~1#64) s

end Sys2Proof.Machine
end

