-- ==== Sys2Proof/Machine/Port.lean ====
section
/-! DEFINITION. The ports of the step (10_state.md R36, R40, R41): how the record comes in, how the instruction word is
fetched, and what goes out. -/

namespace Sys2Proof.Machine

/-- The record of the next step. Calldata that is prepared brings it at bytes 4 to 365 (R36, R41). With none prepared the
host hands back the record the last step returned, after `hostStepUpdate` on field `step` (R46, Assumption 5);
before the first step there is nothing to update. -/
def deliverInput (s : State) : Result State :=
  match s.inputs with
  | [] =>
    match s.stateHash with
    | none => .next s
    | some _ => .next { s with stepCounter := Config.hostStepUpdate s.stepCounter }
  | calldata :: _ =>
    if calldata.length < 4 + recordSize then .refused .shortCalldata
    else .next (s.withRecord (Record.ofBytes (calldata.drop 4)))

/-- The fetch (R100): proof block 0 for the leaf of `pc`, none for the next leaf (R73, R75). -/
def fetch (s : State) : Result (BitVec 32) :=
  andThen (loadMem s s.pc 4 false 0 noProof) fun v => .next (v.setWidth 32)

/-- The end of a step that ends `Ok`: the calldata is used up and the hash of the record goes out (R40, R44). -/
def deliverOutput (s : State) : State :=
  { s with inputs := s.inputs.tail, stateHash := some s.toRecord.hash }

/-- The conditions (a) and (b) of a well-formed record (R35) that the step looks at, after the exited short-circuit. -/
def recordUsable (s : State) : Bool := s.exited == 0 && s.regs[0] == 0

/-- A memory image with an instruction word at `pc`, committed, no calldata prepared and the record usable: what the
host needs to have done for the next step to fetch and run the word (R373, Assumption 8). -/
def placeWord (s : State) (word : Nat) : State :=
  { commitMemory s (s.mem.store s.pc (valueByte word) 4) with
    exited := 0
    regs := s.regs.set 0 0
    inputs := [] }

end Sys2Proof.Machine
end

