-- ==== Sys2Proof/Machine/Step.lean ====
section
/-! DEFINITION. One step of the machine (10_state.md R41). -/

namespace Sys2Proof.Machine

/-- One step: the input comes in, an exited machine answers at once (R42), an unusable record is refused (R35), the
word at `pc` is fetched, decoded and executed, and the hash goes out (R44). A fault or a refusal leaves no state
behind (R43). -/
def step (s : State) : Host.Outcome State Fault Refusal :=
  andThen (deliverInput s) fun s1 =>
    if s1.exited = 1 then .next (deliverOutput s1)
    else if recordUsable s1 = false then .refused .illFormedState
    else
      andThen (fetch s1) fun w =>
        andThen (exec (decode w) s1) fun s2 => .next (deliverOutput s2)

/-- `s` with the instruction whose low `nbits` bits are `w` placed where the next step fetches. -/
def State.withFetchWord (s : State) (nbits w : Nat) : State := placeWord s (w % 2 ^ nbits)

end Sys2Proof.Machine
end

