-- ==== Sys2Proof/Safety.lean ====
section
/-! DEFINITION. What a safe state is, and the other terms claims use (10_state.md R34, R35, R45; 20_memory.md R76;
70_reset_and_hazards.md R376). -/

namespace Sys2Proof.Machine

/-! ### States -/

/-- (a) and (b) of a well-formed record (R35). -/
def WellFormedRecord (r : Record) : Prop := r.regs[0] = 0 ∧ (r.exited = 0 ∨ r.exited = 1)

/-- The invariant of R34: `memRoot` is the Merkle root of the conceptual memory. -/
def Committed (s : State) : Prop := s.memRoot = merkleRoot s.mem

/-- The premise of R376: no calldata string is prepared, so the host authors the calldata itself, with honest proof
blocks, and the record commits to the host's memory. -/
def HonestHost (s : State) : Prop := s.inputs = [] ∧ Committed s

/-- The invariant of a run with an honest host: a well-formed record, a canonical memory, and its root in the
record. -/
def Inv (s : State) : Prop := WellFormedRecord s.toRecord ∧ s.mem.wf ∧ HonestHost s

/-- Proof block `p` of a calldata string is honest for `m` at the leaf of `addr` (R76): its leaf and its siblings are
those of the tree of `m`. -/
def HonestBlock (calldata : List Byte) (p : Nat) (m : Memory) (addr : Word) : Prop :=
  proofBlock calldata p = .next (leafAt m (leafIndex addr), honestSiblings m (leafIndex addr))

/-- The address is outside the `size` bytes stored at `addr` (R67, R70). -/
def Outside (a : Nat) (addr : Word) (size : Nat) : Prop := ∀ j, j < size → a ≠ byteAddress addr j

/-- The byte of the memory at an address (R60). -/
def byteAt (s : State) (addr : Word) : Byte := s.mem.read addr.toNat

/-- Two bytes, the one at the lower address in the low bits (R68); addresses wrap (R70). -/
def halfAt (s : State) (addr : Word) : BitVec 16 := byteAt s (addr + 1) ++ byteAt s addr

/-- Four bytes, little-endian (R68). -/
def wordAtAddr (s : State) (addr : Word) : BitVec 32 := halfAt s (addr + 2) ++ halfAt s addr

/-- Eight bytes, little-endian (R68). -/
def doubleAt (s : State) (addr : Word) : BitVec 64 := wordAtAddr s (addr + 4) ++ wordAtAddr s addr

/-- The state after an ordinary write of `size` bytes by an honest host: the bytes stored, the root of the new memory in
the record (R76(b), (c)). -/
def written (s : State) (addr : Word) (f : Nat → Byte) (size : Nat) : State :=
  { s with mem := s.mem.store addr f size, root := .ofMemory }

/-! ### Outcomes -/

/-- The word decodes to the instruction, and executing the instruction in `s` gives `r`. -/
def Runs (word : BitVec 32) (i : Instr) (s : State) (r : Result State) : Prop := decode word = i ∧ exec i s = r

/-- The state after `x[rd] <- v; pc <- pc + 4` and nothing else. -/
def withRd (s : State) (rd : Reg) (v : Word) : State := { s with regs := writeReg s.regs rd v, pc := s.pc + 4 }

/-- The state after a syscall that changed nothing but `x10`, `x11` and `pc` (R261). -/
def withReturn (s : State) (n err : Word) : State :=
  { s with regs := writeReg (writeReg s.regs 10 n) 11 err, pc := s.pc + 4 }

/-- A change of the state carried through an outcome. -/
def mapNext (f : State → State) : Result State → Result State
  | .next s => .next (f s)
  | .fault e => .fault e
  | .refused r => .refused r

/-- An atomic update of `old` to `new` at `addr` by an honest host: `new` is stored, `rd` takes `old` sign-extended (R307). -/
def withAtomic {w : Nat} (s : State) (rd : Reg) (addr : Word) (old new : BitVec w) (size : Nat) : State :=
  withRd (written s addr (fun j => new.extractLsb' (8 * j) 8) size) rd (old.signExtend 64)

/-! ### Division (R225): `a` the dividend, `b` the divisor, `q` the quotient, `r` the remainder -/

/-- The signed columns of the table of R225. -/
def SignedDivision {w : Nat} (a b q r : BitVec w) : Prop :=
  (b = 0 → q = BitVec.allOnes w ∧ r = a) ∧
  (a = BitVec.intMin w → b = BitVec.allOnes w → q = a ∧ r = 0) ∧
  (b ≠ 0 → ¬(a = BitVec.intMin w ∧ b = BitVec.allOnes w) →
    q.toInt = a.toInt.tdiv b.toInt ∧ r.toInt = a.toInt - b.toInt * a.toInt.tdiv b.toInt) ∧
  a = b * q + r

/-- The unsigned columns of the table of R225. -/
def UnsignedDivision {w : Nat} (a b q r : BitVec w) : Prop :=
  (b = 0 → q = BitVec.allOnes w ∧ r = a) ∧
  (b ≠ 0 → q.toNat = a.toNat / b.toNat ∧ r.toNat = a.toNat - b.toNat * (a.toNat / b.toNat)) ∧
  a = b * q + r

/-! ### Instructions, for the rules that speak of kinds of them (R45, R115) -/

/-- The register that takes the result of an instruction; an ECALL is no such instruction. -/
def destination : Instr → Option Reg
  | .lb rd _ _ => some rd
  | .lh rd _ _ => some rd
  | .lw rd _ _ => some rd
  | .ld rd _ _ => some rd
  | .lbu rd _ _ => some rd
  | .lhu rd _ _ => some rd
  | .lwu rd _ _ => some rd
  | .sb _ _ _ => none
  | .sh _ _ _ => none
  | .sw _ _ _ => none
  | .sd _ _ _ => none
  | .beq _ _ _ => none
  | .bne _ _ _ => none
  | .blt _ _ _ => none
  | .bge _ _ _ => none
  | .bltu _ _ _ => none
  | .bgeu _ _ _ => none
  | .addi rd _ _ => some rd
  | .slti rd _ _ => some rd
  | .sltiu rd _ _ => some rd
  | .xori rd _ _ => some rd
  | .ori rd _ _ => some rd
  | .andi rd _ _ => some rd
  | .slli rd _ _ => some rd
  | .srli rd _ _ => some rd
  | .srai rd _ _ => some rd
  | .addiw rd _ _ => some rd
  | .slliw rd _ _ => some rd
  | .srliw rd _ _ => some rd
  | .sraiw rd _ _ => some rd
  | .add rd _ _ => some rd
  | .sub rd _ _ => some rd
  | .sll rd _ _ => some rd
  | .slt rd _ _ => some rd
  | .sltu rd _ _ => some rd
  | .xor rd _ _ => some rd
  | .srl rd _ _ => some rd
  | .sra rd _ _ => some rd
  | .or rd _ _ => some rd
  | .and rd _ _ => some rd
  | .mul rd _ _ => some rd
  | .mulh rd _ _ => some rd
  | .mulhsu rd _ _ => some rd
  | .mulhu rd _ _ => some rd
  | .div rd _ _ => some rd
  | .divu rd _ _ => some rd
  | .rem rd _ _ => some rd
  | .remu rd _ _ => some rd
  | .addw rd _ _ => some rd
  | .subw rd _ _ => some rd
  | .sllw rd _ _ => some rd
  | .srlw rd _ _ => some rd
  | .sraw rd _ _ => some rd
  | .mulw rd _ _ => some rd
  | .divw rd _ _ => some rd
  | .divuw rd _ _ => some rd
  | .remw rd _ _ => some rd
  | .remuw rd _ _ => some rd
  | .lui rd _ => some rd
  | .auipc rd _ => some rd
  | .jal rd _ => some rd
  | .jalr _ rd _ _ => some rd
  | .ecall _ _ => none
  | .ebreak _ _ => none
  | .csrrw rd _ _ => some rd
  | .csrrs rd _ _ => some rd
  | .csrrc rd _ _ => some rd
  | .csrrwi rd _ _ => some rd
  | .csrrsi rd _ _ => some rd
  | .csrrci rd _ _ => some rd
  | .lrW rd _ _ _ _ => some rd
  | .lrD rd _ _ _ _ => some rd
  | .scW rd _ _ _ _ => some rd
  | .scD rd _ _ _ _ => some rd
  | .amoswapW rd _ _ _ _ => some rd
  | .amoaddW rd _ _ _ _ => some rd
  | .amoxorW rd _ _ _ _ => some rd
  | .amoandW rd _ _ _ _ => some rd
  | .amoorW rd _ _ _ _ => some rd
  | .amominW rd _ _ _ _ => some rd
  | .amomaxW rd _ _ _ _ => some rd
  | .amominuW rd _ _ _ _ => some rd
  | .amomaxuW rd _ _ _ _ => some rd
  | .amoswapD rd _ _ _ _ => some rd
  | .amoaddD rd _ _ _ _ => some rd
  | .amoxorD rd _ _ _ _ => some rd
  | .amoandD rd _ _ _ _ => some rd
  | .amoorD rd _ _ _ _ => some rd
  | .amominD rd _ _ _ _ => some rd
  | .amomaxD rd _ _ _ _ => some rd
  | .amominuD rd _ _ _ _ => some rd
  | .amomaxuD rd _ _ _ _ => some rd
  | .fence _ _ _ => none
  | .fenceI _ _ _ => none
  | .fpLoad _ => none
  | .fpStore _ => none
  | .fpOp _ => none
  | .rsvLoad7 rd _ _ => some rd
  | .rsvStore _ _ _ _ => none
  | .rsvBranch _ _ _ _ => none
  | .rsvOpImm _ _ _ _ _ => none
  | .rsvOpImm32 _ _ _ _ _ => none
  | .rsvOp _ _ _ _ _ => none
  | .rsvOp32 _ _ _ _ _ => none
  | .rsvSystem0 _ _ _ => none
  | .rsvSystem4 _ _ _ => none
  | .rsvAmoSize _ _ _ _ _ _ _ => none
  | .rsvAmoWidth _ _ _ _ _ _ _ => none
  | .rsvAmoOp _ _ _ _ _ _ _ => none
  | .rsvMiscmem _ _ _ _ => none
  | .rsvUnknown _ => none

/-- ECALL. -/
def isEcall : Instr → Bool
  | .lb _ _ _ => false
  | .lh _ _ _ => false
  | .lw _ _ _ => false
  | .ld _ _ _ => false
  | .lbu _ _ _ => false
  | .lhu _ _ _ => false
  | .lwu _ _ _ => false
  | .sb _ _ _ => false
  | .sh _ _ _ => false
  | .sw _ _ _ => false
  | .sd _ _ _ => false
  | .beq _ _ _ => false
  | .bne _ _ _ => false
  | .blt _ _ _ => false
  | .bge _ _ _ => false
  | .bltu _ _ _ => false
  | .bgeu _ _ _ => false
  | .addi _ _ _ => false
  | .slti _ _ _ => false
  | .sltiu _ _ _ => false
  | .xori _ _ _ => false
  | .ori _ _ _ => false
  | .andi _ _ _ => false
  | .slli _ _ _ => false
  | .srli _ _ _ => false
  | .srai _ _ _ => false
  | .addiw _ _ _ => false
  | .slliw _ _ _ => false
  | .srliw _ _ _ => false
  | .sraiw _ _ _ => false
  | .add _ _ _ => false
  | .sub _ _ _ => false
  | .sll _ _ _ => false
  | .slt _ _ _ => false
  | .sltu _ _ _ => false
  | .xor _ _ _ => false
  | .srl _ _ _ => false
  | .sra _ _ _ => false
  | .or _ _ _ => false
  | .and _ _ _ => false
  | .mul _ _ _ => false
  | .mulh _ _ _ => false
  | .mulhsu _ _ _ => false
  | .mulhu _ _ _ => false
  | .div _ _ _ => false
  | .divu _ _ _ => false
  | .rem _ _ _ => false
  | .remu _ _ _ => false
  | .addw _ _ _ => false
  | .subw _ _ _ => false
  | .sllw _ _ _ => false
  | .srlw _ _ _ => false
  | .sraw _ _ _ => false
  | .mulw _ _ _ => false
  | .divw _ _ _ => false
  | .divuw _ _ _ => false
  | .remw _ _ _ => false
  | .remuw _ _ _ => false
  | .lui _ _ => false
  | .auipc _ _ => false
  | .jal _ _ => false
  | .jalr _ _ _ _ => false
  | .ecall _ _ => true
  | .ebreak _ _ => false
  | .csrrw _ _ _ => false
  | .csrrs _ _ _ => false
  | .csrrc _ _ _ => false
  | .csrrwi _ _ _ => false
  | .csrrsi _ _ _ => false
  | .csrrci _ _ _ => false
  | .lrW _ _ _ _ _ => false
  | .lrD _ _ _ _ _ => false
  | .scW _ _ _ _ _ => false
  | .scD _ _ _ _ _ => false
  | .amoswapW _ _ _ _ _ => false
  | .amoaddW _ _ _ _ _ => false
  | .amoxorW _ _ _ _ _ => false
  | .amoandW _ _ _ _ _ => false
  | .amoorW _ _ _ _ _ => false
  | .amominW _ _ _ _ _ => false
  | .amomaxW _ _ _ _ _ => false
  | .amominuW _ _ _ _ _ => false
  | .amomaxuW _ _ _ _ _ => false
  | .amoswapD _ _ _ _ _ => false
  | .amoaddD _ _ _ _ _ => false
  | .amoxorD _ _ _ _ _ => false
  | .amoandD _ _ _ _ _ => false
  | .amoorD _ _ _ _ _ => false
  | .amominD _ _ _ _ _ => false
  | .amomaxD _ _ _ _ _ => false
  | .amominuD _ _ _ _ _ => false
  | .amomaxuD _ _ _ _ _ => false
  | .fence _ _ _ => false
  | .fenceI _ _ _ => false
  | .fpLoad _ => false
  | .fpStore _ => false
  | .fpOp _ => false
  | .rsvLoad7 _ _ _ => false
  | .rsvStore _ _ _ _ => false
  | .rsvBranch _ _ _ _ => false
  | .rsvOpImm _ _ _ _ _ => false
  | .rsvOpImm32 _ _ _ _ _ => false
  | .rsvOp _ _ _ _ _ => false
  | .rsvOp32 _ _ _ _ _ => false
  | .rsvSystem0 _ _ _ => false
  | .rsvSystem4 _ _ _ => false
  | .rsvAmoSize _ _ _ _ _ _ _ => false
  | .rsvAmoWidth _ _ _ _ _ _ _ => false
  | .rsvAmoOp _ _ _ _ _ _ _ => false
  | .rsvMiscmem _ _ _ _ => false
  | .rsvUnknown _ => false

/-- LR and SC, the only instructions that touch the reservation (R29, R302). -/
def isReservationOp : Instr → Bool
  | .lb _ _ _ => false
  | .lh _ _ _ => false
  | .lw _ _ _ => false
  | .ld _ _ _ => false
  | .lbu _ _ _ => false
  | .lhu _ _ _ => false
  | .lwu _ _ _ => false
  | .sb _ _ _ => false
  | .sh _ _ _ => false
  | .sw _ _ _ => false
  | .sd _ _ _ => false
  | .beq _ _ _ => false
  | .bne _ _ _ => false
  | .blt _ _ _ => false
  | .bge _ _ _ => false
  | .bltu _ _ _ => false
  | .bgeu _ _ _ => false
  | .addi _ _ _ => false
  | .slti _ _ _ => false
  | .sltiu _ _ _ => false
  | .xori _ _ _ => false
  | .ori _ _ _ => false
  | .andi _ _ _ => false
  | .slli _ _ _ => false
  | .srli _ _ _ => false
  | .srai _ _ _ => false
  | .addiw _ _ _ => false
  | .slliw _ _ _ => false
  | .srliw _ _ _ => false
  | .sraiw _ _ _ => false
  | .add _ _ _ => false
  | .sub _ _ _ => false
  | .sll _ _ _ => false
  | .slt _ _ _ => false
  | .sltu _ _ _ => false
  | .xor _ _ _ => false
  | .srl _ _ _ => false
  | .sra _ _ _ => false
  | .or _ _ _ => false
  | .and _ _ _ => false
  | .mul _ _ _ => false
  | .mulh _ _ _ => false
  | .mulhsu _ _ _ => false
  | .mulhu _ _ _ => false
  | .div _ _ _ => false
  | .divu _ _ _ => false
  | .rem _ _ _ => false
  | .remu _ _ _ => false
  | .addw _ _ _ => false
  | .subw _ _ _ => false
  | .sllw _ _ _ => false
  | .srlw _ _ _ => false
  | .sraw _ _ _ => false
  | .mulw _ _ _ => false
  | .divw _ _ _ => false
  | .divuw _ _ _ => false
  | .remw _ _ _ => false
  | .remuw _ _ _ => false
  | .lui _ _ => false
  | .auipc _ _ => false
  | .jal _ _ => false
  | .jalr _ _ _ _ => false
  | .ecall _ _ => false
  | .ebreak _ _ => false
  | .csrrw _ _ _ => false
  | .csrrs _ _ _ => false
  | .csrrc _ _ _ => false
  | .csrrwi _ _ _ => false
  | .csrrsi _ _ _ => false
  | .csrrci _ _ _ => false
  | .lrW _ _ _ _ _ => true
  | .lrD _ _ _ _ _ => true
  | .scW _ _ _ _ _ => true
  | .scD _ _ _ _ _ => true
  | .amoswapW _ _ _ _ _ => false
  | .amoaddW _ _ _ _ _ => false
  | .amoxorW _ _ _ _ _ => false
  | .amoandW _ _ _ _ _ => false
  | .amoorW _ _ _ _ _ => false
  | .amominW _ _ _ _ _ => false
  | .amomaxW _ _ _ _ _ => false
  | .amominuW _ _ _ _ _ => false
  | .amomaxuW _ _ _ _ _ => false
  | .amoswapD _ _ _ _ _ => false
  | .amoaddD _ _ _ _ _ => false
  | .amoxorD _ _ _ _ _ => false
  | .amoandD _ _ _ _ _ => false
  | .amoorD _ _ _ _ _ => false
  | .amominD _ _ _ _ _ => false
  | .amomaxD _ _ _ _ _ => false
  | .amominuD _ _ _ _ _ => false
  | .amomaxuD _ _ _ _ _ => false
  | .fence _ _ _ => false
  | .fenceI _ _ _ => false
  | .fpLoad _ => false
  | .fpStore _ => false
  | .fpOp _ => false
  | .rsvLoad7 _ _ _ => false
  | .rsvStore _ _ _ _ => false
  | .rsvBranch _ _ _ _ => false
  | .rsvOpImm _ _ _ _ _ => false
  | .rsvOpImm32 _ _ _ _ _ => false
  | .rsvOp _ _ _ _ _ => false
  | .rsvOp32 _ _ _ _ _ => false
  | .rsvSystem0 _ _ _ => false
  | .rsvSystem4 _ _ _ => false
  | .rsvAmoSize _ _ _ _ _ _ _ => false
  | .rsvAmoWidth _ _ _ _ _ _ _ => false
  | .rsvAmoOp _ _ _ _ _ _ _ => false
  | .rsvMiscmem _ _ _ _ => false
  | .rsvUnknown _ => false

/-- Where an instruction other than ECALL stores: the address, by the function its meaning uses, and how many bytes (R45,
R150, R305, R307). -/
def storeTarget : Instr → State → Option (Word × Nat)
  | .lb _ _ _, _ => none
  | .lh _ _ _, _ => none
  | .lw _ _ _, _ => none
  | .ld _ _ _, _ => none
  | .lbu _ _ _, _ => none
  | .lhu _ _ _, _ => none
  | .lwu _ _ _, _ => none
  | .sb rs1 _ imm, s => some (storeAddress rs1 imm s, 1)
  | .sh rs1 _ imm, s => some (storeAddress rs1 imm s, 2)
  | .sw rs1 _ imm, s => some (storeAddress rs1 imm s, 4)
  | .sd rs1 _ imm, s => some (storeAddress rs1 imm s, 8)
  | .beq _ _ _, _ => none
  | .bne _ _ _, _ => none
  | .blt _ _ _, _ => none
  | .bge _ _ _, _ => none
  | .bltu _ _ _, _ => none
  | .bgeu _ _ _, _ => none
  | .addi _ _ _, _ => none
  | .slti _ _ _, _ => none
  | .sltiu _ _ _, _ => none
  | .xori _ _ _, _ => none
  | .ori _ _ _, _ => none
  | .andi _ _ _, _ => none
  | .slli _ _ _, _ => none
  | .srli _ _ _, _ => none
  | .srai _ _ _, _ => none
  | .addiw _ _ _, _ => none
  | .slliw _ _ _, _ => none
  | .srliw _ _ _, _ => none
  | .sraiw _ _ _, _ => none
  | .add _ _ _, _ => none
  | .sub _ _ _, _ => none
  | .sll _ _ _, _ => none
  | .slt _ _ _, _ => none
  | .sltu _ _ _, _ => none
  | .xor _ _ _, _ => none
  | .srl _ _ _, _ => none
  | .sra _ _ _, _ => none
  | .or _ _ _, _ => none
  | .and _ _ _, _ => none
  | .mul _ _ _, _ => none
  | .mulh _ _ _, _ => none
  | .mulhsu _ _ _, _ => none
  | .mulhu _ _ _, _ => none
  | .div _ _ _, _ => none
  | .divu _ _ _, _ => none
  | .rem _ _ _, _ => none
  | .remu _ _ _, _ => none
  | .addw _ _ _, _ => none
  | .subw _ _ _, _ => none
  | .sllw _ _ _, _ => none
  | .srlw _ _ _, _ => none
  | .sraw _ _ _, _ => none
  | .mulw _ _ _, _ => none
  | .divw _ _ _, _ => none
  | .divuw _ _ _, _ => none
  | .remw _ _ _, _ => none
  | .remuw _ _ _, _ => none
  | .lui _ _, _ => none
  | .auipc _ _, _ => none
  | .jal _ _, _ => none
  | .jalr _ _ _ _, _ => none
  | .ecall _ _, _ => none
  | .ebreak _ _, _ => none
  | .csrrw _ _ _, _ => none
  | .csrrs _ _ _, _ => none
  | .csrrc _ _ _, _ => none
  | .csrrwi _ _ _, _ => none
  | .csrrsi _ _ _, _ => none
  | .csrrci _ _ _, _ => none
  | .lrW _ _ _ _ _, _ => none
  | .lrD _ _ _ _ _, _ => none
  | .scW _ rs1 _ _ _, s => if getReg s rs1 = s.loadReservation then some (getReg s rs1, 4) else none
  | .scD _ rs1 _ _ _, s => if getReg s rs1 = s.loadReservation then some (getReg s rs1, 8) else none
  | .amoswapW _ rs1 _ _ _, s => some (getReg s rs1, 4)
  | .amoaddW _ rs1 _ _ _, s => some (getReg s rs1, 4)
  | .amoxorW _ rs1 _ _ _, s => some (getReg s rs1, 4)
  | .amoandW _ rs1 _ _ _, s => some (getReg s rs1, 4)
  | .amoorW _ rs1 _ _ _, s => some (getReg s rs1, 4)
  | .amominW _ rs1 _ _ _, s => some (getReg s rs1, 4)
  | .amomaxW _ rs1 _ _ _, s => some (getReg s rs1, 4)
  | .amominuW _ rs1 _ _ _, s => some (getReg s rs1, 4)
  | .amomaxuW _ rs1 _ _ _, s => some (getReg s rs1, 4)
  | .amoswapD _ rs1 _ _ _, s => some (getReg s rs1, 8)
  | .amoaddD _ rs1 _ _ _, s => some (getReg s rs1, 8)
  | .amoxorD _ rs1 _ _ _, s => some (getReg s rs1, 8)
  | .amoandD _ rs1 _ _ _, s => some (getReg s rs1, 8)
  | .amoorD _ rs1 _ _ _, s => some (getReg s rs1, 8)
  | .amominD _ rs1 _ _ _, s => some (getReg s rs1, 8)
  | .amomaxD _ rs1 _ _ _, s => some (getReg s rs1, 8)
  | .amominuD _ rs1 _ _ _, s => some (getReg s rs1, 8)
  | .amomaxuD _ rs1 _ _ _, s => some (getReg s rs1, 8)
  | .fence _ _ _, _ => none
  | .fenceI _ _ _, _ => none
  | .fpLoad _, _ => none
  | .fpStore _, _ => none
  | .fpOp _, _ => none
  | .rsvLoad7 _ _ _, _ => none
  | .rsvStore _ _ _ _, _ => none
  | .rsvBranch _ _ _ _, _ => none
  | .rsvOpImm _ _ _ _ _, _ => none
  | .rsvOpImm32 _ _ _ _ _, _ => none
  | .rsvOp _ _ _ _ _, _ => none
  | .rsvOp32 _ _ _ _ _, _ => none
  | .rsvSystem0 _ _ _, _ => none
  | .rsvSystem4 _ _ _, _ => none
  | .rsvAmoSize _ _ _ _ _ _ _, _ => none
  | .rsvAmoWidth _ _ _ _ _ _ _, _ => none
  | .rsvAmoOp _ _ _ _ _ _ _, _ => none
  | .rsvMiscmem _ _ _ _, _ => none
  | .rsvUnknown _, _ => none

/-- Branches and jumps (R115). -/
def isControlTransfer : Instr → Bool
  | .lb _ _ _ => false
  | .lh _ _ _ => false
  | .lw _ _ _ => false
  | .ld _ _ _ => false
  | .lbu _ _ _ => false
  | .lhu _ _ _ => false
  | .lwu _ _ _ => false
  | .sb _ _ _ => false
  | .sh _ _ _ => false
  | .sw _ _ _ => false
  | .sd _ _ _ => false
  | .beq _ _ _ => true
  | .bne _ _ _ => true
  | .blt _ _ _ => true
  | .bge _ _ _ => true
  | .bltu _ _ _ => true
  | .bgeu _ _ _ => true
  | .addi _ _ _ => false
  | .slti _ _ _ => false
  | .sltiu _ _ _ => false
  | .xori _ _ _ => false
  | .ori _ _ _ => false
  | .andi _ _ _ => false
  | .slli _ _ _ => false
  | .srli _ _ _ => false
  | .srai _ _ _ => false
  | .addiw _ _ _ => false
  | .slliw _ _ _ => false
  | .srliw _ _ _ => false
  | .sraiw _ _ _ => false
  | .add _ _ _ => false
  | .sub _ _ _ => false
  | .sll _ _ _ => false
  | .slt _ _ _ => false
  | .sltu _ _ _ => false
  | .xor _ _ _ => false
  | .srl _ _ _ => false
  | .sra _ _ _ => false
  | .or _ _ _ => false
  | .and _ _ _ => false
  | .mul _ _ _ => false
  | .mulh _ _ _ => false
  | .mulhsu _ _ _ => false
  | .mulhu _ _ _ => false
  | .div _ _ _ => false
  | .divu _ _ _ => false
  | .rem _ _ _ => false
  | .remu _ _ _ => false
  | .addw _ _ _ => false
  | .subw _ _ _ => false
  | .sllw _ _ _ => false
  | .srlw _ _ _ => false
  | .sraw _ _ _ => false
  | .mulw _ _ _ => false
  | .divw _ _ _ => false
  | .divuw _ _ _ => false
  | .remw _ _ _ => false
  | .remuw _ _ _ => false
  | .lui _ _ => false
  | .auipc _ _ => false
  | .jal _ _ => true
  | .jalr _ _ _ _ => true
  | .ecall _ _ => false
  | .ebreak _ _ => false
  | .csrrw _ _ _ => false
  | .csrrs _ _ _ => false
  | .csrrc _ _ _ => false
  | .csrrwi _ _ _ => false
  | .csrrsi _ _ _ => false
  | .csrrci _ _ _ => false
  | .lrW _ _ _ _ _ => false
  | .lrD _ _ _ _ _ => false
  | .scW _ _ _ _ _ => false
  | .scD _ _ _ _ _ => false
  | .amoswapW _ _ _ _ _ => false
  | .amoaddW _ _ _ _ _ => false
  | .amoxorW _ _ _ _ _ => false
  | .amoandW _ _ _ _ _ => false
  | .amoorW _ _ _ _ _ => false
  | .amominW _ _ _ _ _ => false
  | .amomaxW _ _ _ _ _ => false
  | .amominuW _ _ _ _ _ => false
  | .amomaxuW _ _ _ _ _ => false
  | .amoswapD _ _ _ _ _ => false
  | .amoaddD _ _ _ _ _ => false
  | .amoxorD _ _ _ _ _ => false
  | .amoandD _ _ _ _ _ => false
  | .amoorD _ _ _ _ _ => false
  | .amominD _ _ _ _ _ => false
  | .amomaxD _ _ _ _ _ => false
  | .amominuD _ _ _ _ _ => false
  | .amomaxuD _ _ _ _ _ => false
  | .fence _ _ _ => false
  | .fenceI _ _ _ => false
  | .fpLoad _ => false
  | .fpStore _ => false
  | .fpOp _ => false
  | .rsvLoad7 _ _ _ => false
  | .rsvStore _ _ _ _ => false
  | .rsvBranch _ _ _ _ => false
  | .rsvOpImm _ _ _ _ _ => false
  | .rsvOpImm32 _ _ _ _ _ => false
  | .rsvOp _ _ _ _ _ => false
  | .rsvOp32 _ _ _ _ _ => false
  | .rsvSystem0 _ _ _ => false
  | .rsvSystem4 _ _ _ => false
  | .rsvAmoSize _ _ _ _ _ _ _ => false
  | .rsvAmoWidth _ _ _ _ _ _ _ => false
  | .rsvAmoOp _ _ _ _ _ _ _ => false
  | .rsvMiscmem _ _ _ _ => false
  | .rsvUnknown _ => false

end Sys2Proof.Machine
end

