-- ==== Sys2Proof/Certificates/Slice0/Obligations.lean ====
section
/-! DEFINITION. The statements about the machine, for the provers. Each docstring names the rules of the spec that the
statement formalises, or says that it is the model's choice. -/

section

open Sys2Proof Sys2Proof.Machine

/-- The reset state is the test fixture (the model's choice, Assumption 1; the spec leaves every field to the host,
R47, R370). -/
def Obligations.ResetFields : Prop :=
  State.reset.pc = 0 ∧ (∀ i : Reg, getReg State.reset i = 0) ∧ State.reset.exited = 0 ∧ State.reset.exitCode = 0 ∧
    State.reset.heap = 0 ∧ State.reset.loadReservation = 0 ∧ State.reset.preimageKey = 0 ∧
    State.reset.preimageOffset = 0 ∧ State.reset.stepCounter = 0 ∧ State.reset.mem = [] ∧
    State.reset.inputs = [] ∧ State.reset.oracleTable = [] ∧ State.reset.stateHash = none ∧
    (∀ a, State.reset.mem.read a = 0)

/-- The invariant of `StepKeepsInv` holds at reset: the root in the record is the root of the all-zero memory, Z59 of
95_test_vectors.md section 3.2 (R370 gives it as the fixture's; the model's choice, Assumption 1). -/
def Obligations.ResetIsCommitted : Prop :=
  Sys2Proof.Machine.Inv State.reset ∧
    State.reset.memRoot = 0x14af5385bcbb1e4738bbae8106046e6e2fca42875aa5c000c582587742bcc748#256

/-- R34, R35, R76(c), R376: with honest witnesses a well-formed record stays well formed and `memRoot` stays the root
of the conceptual memory. The clause that no calldata is prepared is the model's own (Assumption 4). -/
def Obligations.StepKeepsInv : Prop :=
  ∀ s s', Sys2Proof.Machine.Inv s → step s = .next s' → Sys2Proof.Machine.Inv s'

/-- R35(a), (b), R26: from a well-formed record every step that ends Ok gives one, and `exited` never goes back. The
canonical form of the memory is the model's (Assumption 3). -/
def Obligations.StepKeepsWellFormed : Prop :=
  (∀ s s1 s', deliverInput s = .next s1 → WellFormedRecord s1.toRecord → step s = .next s' →
      WellFormedRecord s'.toRecord ∧ (s1.exited = 1 → s'.exited = 1)) ∧
    (∀ s s', s.mem.wf → step s = .next s' → s'.mem.wf)

/-- R30, R31: x0 reads zero, a write to it leaves the register file as it was, and a write to another register changes
that one alone. -/
def Obligations.RegisterFile : Prop :=
  ∀ (s : State) (i j : Reg) (v : Word),
    getReg s 0 = 0 ∧ setReg s 0 v = s ∧ (i ≠ 0 → getReg s i = s.regs[i.toNat]'i.isLt) ∧
    (i ≠ 0 → getReg (setReg s i v) i = v) ∧ (j ≠ i → getReg (setReg s i v) j = getReg s j) ∧
    setReg s i v = { s with regs := writeReg s.regs i v } ∧ (writeReg s.regs i v)[0] = s.regs[0]

/-- R20: offset, size and byte order of every field. `wordAt` reads a little-endian u64, `bytes32At` a 32-byte string.
-/
def Obligations.RecordLayout : Prop :=
  ∀ r : Record, r.toBytes.length = 362 ∧ bytes32At r.toBytes 0 = r.memRoot ∧
    bytes32At r.toBytes 32 = r.preimageKey ∧ wordAt r.toBytes 64 = r.preimageOffset ∧ wordAt r.toBytes 72 = r.pc ∧
    r.toBytes[80]? = some r.exitCode ∧ r.toBytes[81]? = some r.exited ∧ wordAt r.toBytes 82 = r.stepCounter ∧
    wordAt r.toBytes 90 = r.heap ∧ wordAt r.toBytes 98 = r.loadReservation ∧
    (∀ (i : Nat) (h : i < 32), wordAt r.toBytes (106 + 8 * i) = r.regs[i]'h) ∧ Record.ofBytes r.toBytes = r

/-- R36, R41: the record of the step is `calldata[4 : 366]`; nothing of the host's memory changes. That shorter
calldata is Unspecified is the spec's own decision D9 (Assumptions 11, 13). With none prepared the record is the one
the last step left, R46; that `hostStepUpdate` is applied after the first step and not before it is the model's
reading of R46 (Assumption 5). -/
def Obligations.CalldataDelivers : Prop :=
  (∀ s : State, s.inputs = [] →
      (s.stateHash = none → deliverInput s = .next s) ∧
      (∀ h, s.stateHash = some h →
        deliverInput s = .next { s with stepCounter := Config.hostStepUpdate s.stepCounter })) ∧
  ∀ (s : State) (calldata : List Byte) (rest : List (List Byte)), s.inputs = calldata :: rest →
    (calldata.length < 366 → step s = .refused .shortCalldata) ∧
    (366 ≤ calldata.length → ∃ s1, deliverInput s = .next s1 ∧
      s1 = { s with toRecordTail := s1.toRecordTail, root := .digest s1.memRoot } ∧
      s1.memRoot = bytes32At calldata 4 ∧ s1.preimageKey = bytes32At calldata 36 ∧
      s1.preimageOffset = wordAt calldata 68 ∧ s1.pc = wordAt calldata 76 ∧ calldata[84]? = some s1.exitCode ∧
      calldata[85]? = some s1.exited ∧ s1.stepCounter = wordAt calldata 86 ∧ s1.heap = wordAt calldata 94 ∧
      s1.loadReservation = wordAt calldata 102 ∧
      ∀ (i : Nat) (h : i < 32), s1.regs[i]'h = wordAt calldata (110 + 8 * i))

/-- R36: bytes 0 to 3 of calldata are never read; R44: they are not hashed. -/
def Obligations.SelectorIsNotRead : Prop :=
  ∀ (s : State) (c c' : List Byte) (rest : List (List Byte)), c.drop 4 = c'.drop 4 →
    step { s with inputs := c :: rest } = step { s with inputs := c' :: rest }

/-- R42: nothing is fetched, no proof is read, the oracle is not queried, the record is unchanged and its hash goes
out, whatever the root, the proof blocks and the x0 slot are. -/
def Obligations.ExitedShortCircuit : Prop :=
  ∀ s s1, deliverInput s = .next s1 → s1.exited = 1 →
    step s = .next { s1 with inputs := s1.inputs.tail, stateHash := some (keccak256 s1.toRecord.toBytes) }

/-- R35, R41, R100, R343: `exited` or the x0 slot are tested after the short-circuit; a bad proof block 0 reports
0x0badf00d whatever the word is. That an ill-formed record is Unspecified is the spec's own decision D10, the order of
the tests its decision D31 (Assumptions 11, 13). -/
def Obligations.StepStopsBeforeExecuting : Prop :=
  ∀ s s1, deliverInput s = .next s1 → s1.exited ≠ 1 →
    (s1.exited ≠ 0 ∨ s1.regs[0] ≠ 0 → step s = .refused .illFormedState) ∧
    (s1.exited = 0 → s1.regs[0] = 0 →
      (∀ e, fetch s1 = .fault e → step s = .fault e ∧ e = .badProof) ∧
      (∀ r, fetch s1 = .refused r → step s = .refused r))

/-- R44: every field of the new record is hashed; the selector and the proof blocks are not. -/
def Obligations.StateHashGoesOut : Prop :=
  ∀ s s', step s = .next s' → s'.stateHash = some (keccak256 s'.toRecord.toBytes)

/-- R62: the three known answers (the definition itself is general knowledge, R82, Assumption 7). -/
def Obligations.KeccakKnownAnswers : Prop :=
  keccak256 [] = 0xc5d2460186f7233c927e7db2dcc703c0e500b653ca82273b7bfad8045d85a470#256 ∧
    keccak256 [0x61, 0x62, 0x63] = 0x4e03657aea45a94fc7d47ba826c8d667c0d1e6e33a64a036ec44f58fa12d6c45#256 ∧
    keccak256 (List.replicate 64 0) = 0xad3228b676f7d3cd4284a5443f17f1962b36e491b30a40b2405849e597ba5fb5#256

/-- R60, R67, R70: the stored addresses (modulo 2^64) hold the stored bytes, every other address reads as before. -/
def Obligations.MemoryBytesAfterStore : Prop :=
  ∀ (m : Memory) (addr : Word) (f : Nat → Byte) (size : Nat), size ≤ 2 ^ 64 →
    (∀ j, j < size → (m.store addr f size).read (byteAddress addr j) = f j) ∧
    (∀ a, Outside a addr size → (m.store addr f size).read a = m.read a) ∧
    (m.wf → (m.store addr f size).wf)

/-- R63 to R65, R38: leaf and siblings come from the proof block; a read compares the folded root, a write replaces
it, unverified; path bit 0 hashes node ‖ sibling, 1 sibling ‖ node. `m` is the host's copy of the memory (Assumption
2). That index 0xFF and a missing block are Unspecified, tested before the walk, are the spec's own decisions D8 and
D9 and the model's reading of them (Assumptions 11, 13). With no calldata prepared the block is the honest one, whose
leaf and folded root are those of the host's memory (R76(a), R376; Assumption 4). The two forms in which the state
keeps `memRoot` are the model's (Assumption 17). -/
def Obligations.LeafPrimitives : Prop :=
  (∀ (node sib : Bytes32) (sibs : List Bytes32) (path : Nat),
      foldRoot node [] path = node ∧
      foldRoot node (sib :: sibs) path =
        foldRoot (keccak256 (if path.testBit 0 then bytes32List sib ++ bytes32List node
          else bytes32List node ++ bytes32List sib)) sibs (path >>> 1)) ∧
    (∀ (s : State) (b : Bytes32), ({ s with root := .digest b } : State).memRoot = b ∧
      ({ s with root := .ofMemory } : State).memRoot = merkleRoot s.mem) ∧
    (∀ (s : State) (addr : Word) (p : Nat) (newLeaf : Bytes32) (m : Memory), s.inputs = [] →
      (addr &&& 31 ≠ 0 → getMemoryB32 s addr p = .fault .unalignedMerkle ∧
        setMemoryB32 s addr newLeaf p m = .fault .unalignedMerkle) ∧
      (addr &&& 31 = 0 → p = 0xFF → getMemoryB32 s addr p = .refused .noProofProvided ∧
        setMemoryB32 s addr newLeaf p m = .refused .noProofProvided) ∧
      (addr &&& 31 = 0 → p ≠ 0xFF →
        getMemoryB32 s addr p =
          (if s.memRoot = merkleRoot s.mem then .next (leafAt s.mem (addr.toNat / 32)) else .fault .badProof) ∧
        setMemoryB32 s addr newLeaf p m = .next { s with root := .ofMemory, mem := m })) ∧
    ∀ (s : State) (addr : Word) (p : Nat) (calldata : List Byte) (rest : List (List Byte)) (leaf newLeaf : Bytes32)
      (sibs : List Bytes32) (m : Memory), s.inputs = calldata :: rest →
      leaf = bytes32At calldata (366 + 2048 * p) →
      sibs = (List.range 59).map (fun i => bytes32At calldata (366 + 2048 * p + 32 * (1 + i))) →
      (addr &&& 31 ≠ 0 → getMemoryB32 s addr p = .fault .unalignedMerkle ∧
        setMemoryB32 s addr newLeaf p m = .fault .unalignedMerkle) ∧
      (addr &&& 31 = 0 → p = 0xFF → getMemoryB32 s addr p = .refused .noProofProvided ∧
        setMemoryB32 s addr newLeaf p m = .refused .noProofProvided) ∧
      (addr &&& 31 = 0 → p ≠ 0xFF → calldata.length < 366 + 2048 * p + 32 * 60 →
        getMemoryB32 s addr p = .refused .missingProof ∧
        setMemoryB32 s addr newLeaf p m = .refused .missingProof) ∧
      (addr &&& 31 = 0 → p ≠ 0xFF → 366 + 2048 * p + 32 * 60 ≤ calldata.length →
        getMemoryB32 s addr p =
          (if foldRoot leaf sibs (addr.toNat / 32) = s.memRoot then .next leaf else .fault .badProof) ∧
        setMemoryB32 s addr newLeaf p m =
          .next { s with root := .digest (foldRoot newLeaf sibs (addr.toNat / 32)), mem := m })

/-- R61, R76(a), (b): folding leaf j with its siblings gives the Merkle root; folding a new leaf with the same
siblings gives the root of the memory with that leaf replaced. -/
def Obligations.HonestProofFolds : Prop :=
  ∀ (m m' : Memory) (j : Nat), j < 2 ^ 59 →
    foldRoot (leafAt m j) (honestSiblings m j) j = merkleRoot m ∧ merkleRoot m = merkleNode m 59 0 ∧
    ((∀ a, a / 32 ≠ j → m'.read a = m.read a) →
      foldRoot (leafAt m' j) (honestSiblings m j) j = merkleRoot m')

/-- R76(c), R378, R379: verified loads return the bytes of the memory; a store replaces its bytes and keeps `memRoot`
the root, its right block honest for the memory after the left patch. That storeMem takes every size from 1 to 32 is
the spec's own decision D29, the wrap at 2^64 its decision D30 (Assumption 13). -/
def Obligations.HonestLiteralAccess : Prop :=
  ∀ (s : State) (calldata : List Byte) (rest : List (List Byte)) (addr : Word) (size pL pR : Nat),
    s.inputs = calldata :: rest → Committed s → 1 ≤ size → size ≤ 32 → HonestBlock calldata pL s.mem addr →
    (∀ signed, size ≤ 8 → (32 < addr.toNat % 32 + size → HonestBlock calldata pR s.mem (addr + (BitVec.ofNat 64 size - 1))) →
      loadMem s addr size signed pL pR =
        .next (if signed then sext (8 * size) (s.mem.load addr size) else s.mem.load addr size)) ∧
    (∀ value : Nat,
      (32 < addr.toNat % 32 + size →
        HonestBlock calldata pR (s.mem.store addr (valueByte value) (32 - addr.toNat % 32))
          (addr + (BitVec.ofNat 64 size - 1))) →
      storeMem s addr size value pL pR = .next { s with
        mem := s.mem.store addr (valueByte value) size
        root := .digest (merkleRoot (s.mem.store addr (valueByte value) size)) })

/-- R67: store then load yields the low bytes, at every address; R68: a narrow access sees the bytes of a wider one.
The honest host is in the model's form (Assumption 4). -/
def Obligations.StoreThenLoad : Prop :=
  ∀ (s s' : State) (addr : Word) (size value pL pR : Nat), HonestHost s → 1 ≤ size → size ≤ 8 → pL ≠ 0xFF → pR ≠ 0xFF →
    storeMem s addr size value pL pR = .next s' →
    loadMem s' addr size false pL pR = .next (BitVec.ofNat 64 (value % 2 ^ (8 * size))) ∧
    ∀ k, k < size → loadMem s' (addr + BitVec.ofNat 64 k) 1 false pL pR =
      .next (BitVec.ofNat 64 (value >>> (8 * k) % 256))

/-- R68, R75, R100: little-endian, any alignment as long as the four bytes lie in one leaf. That the fetch uses block
0 and index 0xFF is the spec's own decision D6, that a crossing fetch is therefore Unspecified its decision D8
(Assumptions 11, 13). The honest host is in the model's form (Assumption 4). -/
def Obligations.FetchReadsMemory : Prop :=
  ∀ s : State, (HonestHost s → s.pc.toNat % 32 ≤ 28 → fetch s = .next (wordAtAddr s s.pc)) ∧
    (HonestHost s → 28 < s.pc.toNat % 32 → fetch s = .refused .noProofProvided) ∧
    (28 < s.pc.toNat % 32 → ∀ w, fetch s ≠ .next w)

/-- R41, R100: input, exited test, record test, fetch, execute, hash; nothing else happens in a step. The honest host
is in the model's form (Assumption 4). -/
def Obligations.StepRunsDecodedInstruction : Prop :=
  (∀ s s1 w, deliverInput s = .next s1 → s1.exited = 0 → s1.regs[0] = 0 → fetch s1 = .next w →
      step s = andThen (exec (decode w) s1) fun s2 =>
        .next { s2 with inputs := s2.inputs.tail, stateHash := some (keccak256 s2.toRecord.toBytes) }) ∧
    (∀ s s1 i, HonestHost s → deliverInput s = .next s1 → s1.exited = 0 → s1.regs[0] = 0 →
      s1.pc.toNat % 32 ≤ 28 → WellFormed i = true → wordAtAddr s1 s1.pc = encode i →
      step s = andThen (exec i s1) fun s2 =>
        .next { s2 with inputs := s2.inputs.tail, stateHash := some (keccak256 s2.toRecord.toBytes) })

/-- R101 to R112: no bit of any encoding is dropped, for all 111 rows and all operand values. -/
def Obligations.DecodeEncode : Prop :=
  ∀ (i : Instr) (rest : List Byte), WellFormed i = true →
    decode (encode i) = i ∧ decodeBytes (encodeBytes i ++ rest) = .ok (i, rest)

/-- R101 to R112: the decoder is total and the 111 rows split the 2^32 words among them. -/
def Obligations.EncodeDecode : Prop :=
  ∀ w : BitVec 32, WellFormed (decode w) = true ∧ encode (decode w) = w

/-- The example words of R141, R154, R162, R171, R179, R184, R198, R213, R230, R232, R233, R247, R316. -/
def Obligations.DecodeSpecWords : Prop :=
  decode 0x00028103 = .lb 2 5 0 ∧ decode 0x0012B023 = .sd 5 1 0 ∧ decode 0xFE029CE3 = .bne 5 0 0x1FF8 ∧
    decode 0x00500093 = .addi 1 0 5 ∧ decode 0x43F35293 = .srai 5 6 63 ∧ decode 0x41F3529B = .sraiw 5 6 31 ∧
    decode 0x4020D1B3 = .sra 3 1 2 ∧ decode 0x0220A1B3 = .mulhsu 3 1 2 ∧ decode 0x12345537 = .lui 10 0x12345 ∧
    decode 0xFF9FF06F = .jal 0 0x1FFFF8 ∧ decode 0x004280E7 = .jalr 0 1 5 4 ∧ decode 0x00000073 = .ecall 0 0 ∧
    decode 0xC00022F3 = .csrrs 5 0 0xC00 ∧ decode 0xE063A2AF = .amomaxuW 5 7 6 0 0 ∧
    decode 0x0FF0000F = .fence 0 0 0x0FF ∧ decode 0x00000000 = .rsvUnknown 0

/-- R109: keyed on the opcode alone; no state changes. -/
def Obligations.UnknownOpcodeReverts : Prop :=
  ∀ (w : BitVec 32) (s : State),
    (w.extractLsb' 0 7 ∉ ([0x03, 0x07, 0x0F, 0x13, 0x17, 0x1B, 0x23, 0x27, 0x2F, 0x33, 0x37, 0x3B, 0x53, 0x63, 0x67,
        0x6F, 0x73] : List (BitVec 7)) → Runs w (.rsvUnknown w) s (.fault .unknownOpcode)) ∧
    (w.extractLsb' 0 7 ∈ ([0x03, 0x07, 0x0F, 0x13, 0x17, 0x1B, 0x23, 0x27, 0x2F, 0x33, 0x37, 0x3B, 0x53, 0x63, 0x67,
        0x6F, 0x73] : List (BitVec 7)) → ∀ v, decode w ≠ .rsvUnknown v) ∧
    Fault.unknownOpcode.code = 0xF001C0DE

/-- R111 and the rules of its rows: the spec gives these words neither a result nor a code. Unspecified is the spec's
own decision D13 (Assumptions 11, 13). -/
def Obligations.ReservedWordsRefused : Prop :=
  ∀ (s : State) (rd rs1 rs2 : Reg) (f3 : BitVec 3) (f7 : BitVec 7) (f6 : BitVec 6) (op : BitVec 5) (aq rl : BitVec 1)
    (imm12 : BitVec 12) (shamt : BitVec 6),
    (f3 ∈ [4, 5, 6, 7] → Runs (sType imm12 rs2 rs1 f3 0x23) (.rsvStore f3 rs1 rs2 imm12) s (.refused .reservedStore)) ∧
    (f3 ∈ [2, 3] → Runs (bType (imm12 ++ 0#1) rs2 rs1 f3 0x63) (.rsvBranch f3 rs1 rs2 (imm12 ++ 0#1)) s
      (.refused .reservedBranch)) ∧
    (f3 = 1 ∧ f6 ≠ 0 ∨ f3 = 5 ∧ f6 ≠ 0 ∧ f6 ≠ 0x10 →
      Runs (shift6Type f6 shamt rs1 f3 rd 0x13) (.rsvOpImm f6 f3 rd rs1 shamt) s (.refused .reservedOpImm)) ∧
    (f3 ∈ [2, 3, 4, 6, 7] ∨ f3 = 1 ∧ f7 ≠ 0 ∨ f3 = 5 ∧ f7 ≠ 0 ∧ f7 ≠ 0x20 →
      Runs (rType f7 rs2 rs1 f3 rd 0x1B) (.rsvOpImm32 f7 f3 rd rs1 rs2) s (.refused .reservedOpImm32)) ∧
    (f7 ≠ 0 ∧ f7 ≠ 1 ∧ f7 ≠ 0x20 ∨ f7 = 0x20 ∧ f3 ≠ 0 ∧ f3 ≠ 5 →
      Runs (rType f7 rs2 rs1 f3 rd 0x33) (.rsvOp f7 f3 rd rs1 rs2) s (.refused .reservedOp)) ∧
    (f7 ≠ 0 ∧ f7 ≠ 1 ∧ f7 ≠ 0x20 ∨ f7 = 0 ∧ f3 ∉ [0, 1, 5] ∨ f7 = 0x20 ∧ f3 ∉ [0, 5] ∨ f7 = 1 ∧ f3 ∈ [1, 2, 3] →
      Runs (rType f7 rs2 rs1 f3 rd 0x3B) (.rsvOp32 f7 f3 rd rs1 rs2) s (.refused .reservedOp32)) ∧
    (f3 ∈ [4, 5, 6, 7] → Runs (amoType op aq rl rs2 rs1 f3 rd 0x2F) (.rsvAmoWidth op f3 rd rs1 rs2 aq rl) s
      (.refused .reservedAmoWidth))

/-- R252, R301: decided by the word alone, in every state, with any proof blocks; size before op. That both tests come
before any access is the spec's own decision D34 (Assumption 13). -/
def Obligations.SubDecodeReverts : Prop :=
  ∀ (s : State) (rd rs1 rs2 : Reg) (imm : BitVec 12) (op : BitVec 5) (aq rl : BitVec 1) (f3 : BitVec 3),
    Runs (iType imm rs1 4 rd 0x73) (.rsvSystem4 rd rs1 imm) s (.fault .invalidCsrMode) ∧
    (f3 ∈ [0, 1] → Runs (amoType op aq rl rs2 rs1 f3 rd 0x2F) (.rsvAmoSize op f3 rd rs1 rs2 aq rl) s
      (.fault .invalidAmoSize)) ∧
    (f3 ∈ [2, 3] → op ∉ [0x02, 0x03, 0x00, 0x01, 0x04, 0x08, 0x0C, 0x10, 0x14, 0x18, 0x1C] →
      Runs (amoType op aq rl rs2 rs1 f3 rd 0x2F) (.rsvAmoOp op f3 rd rs1 rs2 aq rl) s (.fault .unknownAmoOp)) ∧
    (∀ i, exec i s = .fault .invalidCsrMode → ∃ a b c, i = .rsvSystem4 a b c) ∧
    Fault.invalidCsrMode.code = 0xBADC0DE0 ∧ Fault.invalidAmoSize.code = 0xBADA70 ∧ Fault.unknownAmoOp.code = 0xF001A70

/-- R341: the nine codes and what raises them; two of them nothing raises. -/
def Obligations.RevertsHaveTheirCauses : Prop :=
  (∀ i s f, exec i s = .fault f →
      f = .badProof ∨
      (f = .invalidCsrMode ∧ ∃ rd rs1 imm, i = .rsvSystem4 rd rs1 imm) ∨
      (f = .invalidAmoSize ∧ ∃ op f3 rd rs1 rs2 aq rl, i = .rsvAmoSize op f3 rd rs1 rs2 aq rl) ∨
      (f = .unknownAmoOp ∧ ∃ op f3 rd rs1 rs2 aq rl, i = .rsvAmoOp op f3 rd rs1 rs2 aq rl) ∨
      (f = .unknownOpcode ∧ ∃ w, i = .rsvUnknown w) ∨
      (f = .unknownSyscall ∧ isEcall i = true ∧
        getReg s 17 ∉ [25, 56, 63, 64, 93, 94, 113, 123, 132, 134, 135, 163, 178, 214, 222]) ∨
      (f = .unknownRlimit ∧ isEcall i = true ∧ getReg s 17 = 163 ∧ getReg s 10 ≠ 7)) ∧
    (∀ s, step s ≠ .fault .unalignedMerkle ∧ step s ≠ .fault .invalidRegister) ∧
    [Fault.unalignedMerkle, .badProof, .invalidRegister, .invalidCsrMode, .invalidAmoSize, .unknownAmoOp,
      .unknownOpcode, .unknownSyscall, .unknownRlimit].map Fault.code =
      [0xBAD10AD0, 0x0BADF00D, 0xBAD4E9, 0xBADC0DE0, 0xBADA70, 0xF001A70, 0xF001C0DE, 0xF001CA11, 0xF0012]

/-- R376: under the premise no step reverts with 0x0badf00d for a Merkle reason. R35(c), R64, R76(a): a record that
does not commit to the memory the blocks are honest for makes the first verified read revert. That no calldata
prepared means honest blocks is the model's choice (Assumption 4). -/
def Obligations.HonestHostNeverBadProof : Prop :=
  (∀ s, HonestHost s → step s = .fault .badProof → ∃ s1 w, deliverInput s = .next s1 ∧ fetch s1 = .next w ∧
    isEcall (decode w) = true ∧ getReg s1 17 = 63 ∧ getReg s1 10 = 5 ∧
    oracleRead s1 s1.preimageKey s1.preimageOffset = .error) ∧
  ∀ s s1, s.inputs = [] → ¬Committed s → deliverInput s = .next s1 → s1.exited = 0 → s1.regs[0] = 0 →
    step s = .fault .badProof

/-- R45 with R26 to R31, R278, R302: registers other than the destination, the reservation, the exit, heap and pre-
image fields, the host's step counter and every byte outside the bytes stored. -/
def Obligations.WhoWritesWhat : Prop :=
  ∀ i s s', exec i s = .next s' →
    (∀ r : Reg, destination i ≠ some r → (isEcall i = true → r ≠ 10 ∧ r ≠ 11) → getReg s' r = getReg s r) ∧
    s'.regs[0] = s.regs[0] ∧
    (isReservationOp i = false → s'.loadReservation = s.loadReservation) ∧
    (isEcall i = false → s'.preimageKey = s.preimageKey ∧ s'.preimageOffset = s.preimageOffset ∧
      s'.exitCode = s.exitCode ∧ s'.exited = s.exited ∧ s'.heap = s.heap) ∧
    s'.stepCounter = s.stepCounter ∧ s'.inputs = s.inputs ∧ s'.oracleTable = s.oracleTable ∧
    s'.stateHash = s.stateHash ∧
    (isEcall i = false → storeTarget i s = none → s'.mem = s.mem ∧ s'.root = s.root ∧ s'.memRoot = s.memRoot) ∧
    (∀ addr size, storeTarget i s = some (addr, size) → ∀ a, Outside a addr size → s'.mem.read a = s.mem.read a)

/-- R278: the fields each syscall writes, and the 16 bytes or the part of one leaf it may store to. -/
def Obligations.EcallFrame : Prop :=
  ∀ rd rs1 s s', exec (.ecall rd rs1) s = .next s' →
    (getReg s 17 ≠ 93 → getReg s 17 ≠ 94 → s'.exitCode = s.exitCode ∧ s'.exited = s.exited) ∧
    (getReg s 17 ≠ 222 → s'.heap = s.heap) ∧
    (getReg s 17 ≠ 64 → s'.preimageKey = s.preimageKey) ∧
    (getReg s 17 ≠ 64 → getReg s 17 ≠ 63 → s'.preimageOffset = s.preimageOffset) ∧
    (getReg s 17 ≠ 113 → getReg s 17 ≠ 163 → ¬(getReg s 17 = 63 ∧ getReg s 10 = 5) →
      s'.mem = s.mem ∧ s'.root = s.root ∧ s'.memRoot = s.memRoot) ∧
    (getReg s 17 = 113 ∨ getReg s 17 = 163 → ∀ a, Outside a (getReg s 11) 16 → s'.mem.read a = s.mem.read a) ∧
    (getReg s 17 = 63 → ∀ a, Outside a (getReg s 11) (min (getReg s 12).toNat (32 - (getReg s 11).toNat % 32)) →
      s'.mem.read a = s.mem.read a)

/-- R115, for all instructions and all syscalls. For stores, computational, CSR, atomic and fence words the advance is
the spec's own decision D11, for EBREAK its decision D15 (Assumption 13). -/
def Obligations.PcAdvances : Prop :=
  ∀ i s s', exec i s = .next s' → isControlTransfer i = false →
    (¬(isEcall i = true ∧ (getReg s 17 = 93 ∨ getReg s 17 = 94)) → s'.pc = s.pc + 4) ∧
    (isEcall i = true → getReg s 17 = 93 ∨ getReg s 17 = 94 → s'.pc = s.pc)

/-- R27, R360: it is copied through unchanged and influences nothing else. -/
def Obligations.StepCounterUntouched : Prop :=
  ∀ i s (c : Word),
    exec i { s with stepCounter := c } = mapNext (fun t => { t with stepCounter := c }) (exec i s)

/-- R39: the oracle is queried only there. -/
def Obligations.OracleOnlyInRead : Prop :=
  ∀ i s (t : List OracleEntry), ¬(isEcall i = true ∧ getReg s 17 = 63 ∧ getReg s 10 = 5) →
    exec i { s with oracleTable := t } = mapNext (fun u => { u with oracleTable := t }) (exec i s)

/-- R140 to R148: `x[rd] <- loadMem(x[rs1] + immI, size, signed, 1, 2); pc <- pc + 4`; a load fails only by a bad
proof, and then writes nothing. That funct3 = 7 executes is the spec's own decision D14, the proof pair its decision
D7 (Assumptions 12, 13). -/
def Obligations.LoadsUseVerifiedReads : Prop :=
  (∀ (s : State) (addr : Word) (size : Nat) (signed : Bool) (e : Fault),
      loadMem s addr size signed 1 2 = .fault e → e = .badProof) ∧
    ∀ (rd rs1 : Reg) (imm : BitVec 12) (s : State) (a : Word), a = getReg s rs1 + imm.signExtend 64 →
      Runs (iType imm rs1 0 rd 0x03) (.lb rd rs1 imm) s
        (andThen (loadMem s a 1 true 1 2) fun v => .next (withRd s rd v)) ∧
      Runs (iType imm rs1 1 rd 0x03) (.lh rd rs1 imm) s
        (andThen (loadMem s a 2 true 1 2) fun v => .next (withRd s rd v)) ∧
      Runs (iType imm rs1 2 rd 0x03) (.lw rd rs1 imm) s
        (andThen (loadMem s a 4 true 1 2) fun v => .next (withRd s rd v)) ∧
      Runs (iType imm rs1 3 rd 0x03) (.ld rd rs1 imm) s
        (andThen (loadMem s a 8 true 1 2) fun v => .next (withRd s rd v)) ∧
      Runs (iType imm rs1 4 rd 0x03) (.lbu rd rs1 imm) s
        (andThen (loadMem s a 1 false 1 2) fun v => .next (withRd s rd v)) ∧
      Runs (iType imm rs1 5 rd 0x03) (.lhu rd rs1 imm) s
        (andThen (loadMem s a 2 false 1 2) fun v => .next (withRd s rd v)) ∧
      Runs (iType imm rs1 6 rd 0x03) (.lwu rd rs1 imm) s
        (andThen (loadMem s a 4 false 1 2) fun v => .next (withRd s rd v)) ∧
      Runs (iType imm rs1 7 rd 0x03) (.rsvLoad7 rd rs1 imm) s
        (andThen (loadMem s a 8 false 1 2) fun v => .next (withRd s rd v))

/-- R66, R68 to R70, R140 to R148 with honest witnesses: any address, any alignment, across leaves and past 2^64. That
funct3 = 7 executes is the spec's own decision D14, marked so in R148 (Assumptions 12, 13). The honest host is in the
model's form (Assumption 4). -/
def Obligations.LoadsReadMemory : Prop :=
  ∀ (rd rs1 : Reg) (imm : BitVec 12) (s : State) (a : Word), HonestHost s → a = getReg s rs1 + imm.signExtend 64 →
    exec (.lb rd rs1 imm) s = .next (withRd s rd ((byteAt s a).signExtend 64)) ∧
    exec (.lh rd rs1 imm) s = .next (withRd s rd ((halfAt s a).signExtend 64)) ∧
    exec (.lw rd rs1 imm) s = .next (withRd s rd ((wordAtAddr s a).signExtend 64)) ∧
    exec (.ld rd rs1 imm) s = .next (withRd s rd (doubleAt s a)) ∧
    exec (.lbu rd rs1 imm) s = .next (withRd s rd ((byteAt s a).setWidth 64)) ∧
    exec (.lhu rd rs1 imm) s = .next (withRd s rd ((halfAt s a).setWidth 64)) ∧
    exec (.lwu rd rs1 imm) s = .next (withRd s rd ((wordAtAddr s a).setWidth 64)) ∧
    exec (.rsvLoad7 rd rs1 imm) s = .next (withRd s rd (doubleAt s a))

/-- R150 to R154: `storeMem(x[rs1] + immS, size, x[rs2], 1, 2); pc <- pc + 4`. The proof pair (1, 2) is the spec's own
decision D7, the pc advance its decision D11 (Assumption 13). -/
def Obligations.StoresUseVerifiedWrites : Prop :=
  (∀ (s : State) (addr : Word) (size value : Nat) (e : Fault), storeMem s addr size value 1 2 = .fault e → e = .badProof) ∧
    ∀ (rs1 rs2 : Reg) (imm : BitVec 12) (s : State) (a : Word), a = getReg s rs1 + imm.signExtend 64 →
      Runs (sType imm rs2 rs1 0 0x23) (.sb rs1 rs2 imm) s
        (andThen (storeMem s a 1 (getReg s rs2).toNat 1 2) fun t => .next { t with pc := s.pc + 4 }) ∧
      Runs (sType imm rs2 rs1 1 0x23) (.sh rs1 rs2 imm) s
        (andThen (storeMem s a 2 (getReg s rs2).toNat 1 2) fun t => .next { t with pc := s.pc + 4 }) ∧
      Runs (sType imm rs2 rs1 2 0x23) (.sw rs1 rs2 imm) s
        (andThen (storeMem s a 4 (getReg s rs2).toNat 1 2) fun t => .next { t with pc := s.pc + 4 }) ∧
      Runs (sType imm rs2 rs1 3 0x23) (.sd rs1 rs2 imm) s
        (andThen (storeMem s a 8 (getReg s rs2).toNat 1 2) fun t => .next { t with pc := s.pc + 4 })

/-- R67, R68 to R70, R150 to R154 with honest witnesses: little-endian, any address, across leaves and past 2^64. The
honest host is in the model's form (Assumption 4). -/
def Obligations.StoresWriteMemory : Prop :=
  ∀ (rs1 rs2 : Reg) (imm : BitVec 12) (s : State) (a : Word), HonestHost s → a = getReg s rs1 + imm.signExtend 64 →
    exec (.sb rs1 rs2 imm) s =
      .next { written s a (fun j => (getReg s rs2).extractLsb' (8 * j) 8) 1 with pc := s.pc + 4 } ∧
    exec (.sh rs1 rs2 imm) s =
      .next { written s a (fun j => (getReg s rs2).extractLsb' (8 * j) 8) 2 with pc := s.pc + 4 } ∧
    exec (.sw rs1 rs2 imm) s =
      .next { written s a (fun j => (getReg s rs2).extractLsb' (8 * j) 8) 4 with pc := s.pc + 4 } ∧
    exec (.sd rs1 rs2 imm) s =
      .next { written s a (fun j => (getReg s rs2).extractLsb' (8 * j) 8) 8 with pc := s.pc + 4 }

/-- R160 to R166: taken, pc + immB; not taken, pc + 4; nothing else changes. `imm` holds bits 12 to 1 of immB. -/
def Obligations.Branches : Prop :=
  ∀ (rs1 rs2 : Reg) (imm : BitVec 12) (s : State) (target : Word), target = s.pc + (imm ++ 0#1).signExtend 64 →
    Runs (bType (imm ++ 0#1) rs2 rs1 0 0x63) (.beq rs1 rs2 (imm ++ 0#1)) s
      (.next { s with pc := if getReg s rs1 = getReg s rs2 then target else s.pc + 4 }) ∧
    Runs (bType (imm ++ 0#1) rs2 rs1 1 0x63) (.bne rs1 rs2 (imm ++ 0#1)) s
      (.next { s with pc := if getReg s rs1 ≠ getReg s rs2 then target else s.pc + 4 }) ∧
    Runs (bType (imm ++ 0#1) rs2 rs1 4 0x63) (.blt rs1 rs2 (imm ++ 0#1)) s
      (.next { s with pc := if (getReg s rs1).toInt < (getReg s rs2).toInt then target else s.pc + 4 }) ∧
    Runs (bType (imm ++ 0#1) rs2 rs1 5 0x63) (.bge rs1 rs2 (imm ++ 0#1)) s
      (.next { s with pc := if (getReg s rs2).toInt ≤ (getReg s rs1).toInt then target else s.pc + 4 }) ∧
    Runs (bType (imm ++ 0#1) rs2 rs1 6 0x63) (.bltu rs1 rs2 (imm ++ 0#1)) s
      (.next { s with pc := if (getReg s rs1).toNat < (getReg s rs2).toNat then target else s.pc + 4 }) ∧
    Runs (bType (imm ++ 0#1) rs2 rs1 7 0x63) (.bgeu rs1 rs2 (imm ++ 0#1)) s
      (.next { s with pc := if (getReg s rs2).toNat ≤ (getReg s rs1).toNat then target else s.pc + 4 })

/-- R171 to R179: encoding and result of each; rd and pc alone change. -/
def Obligations.OpImm : Prop :=
  ∀ (rd rs1 : Reg) (imm : BitVec 12) (sh : BitVec 6) (s : State) (a b : Word), a = getReg s rs1 → b = imm.signExtend 64 →
    Runs (iType imm rs1 0 rd 0x13) (.addi rd rs1 imm) s (.next (withRd s rd (a + b))) ∧
    Runs (iType imm rs1 2 rd 0x13) (.slti rd rs1 imm) s (.next (withRd s rd (if a.toInt < b.toInt then 1 else 0))) ∧
    Runs (iType imm rs1 3 rd 0x13) (.sltiu rd rs1 imm) s (.next (withRd s rd (if a.toNat < b.toNat then 1 else 0))) ∧
    Runs (iType imm rs1 4 rd 0x13) (.xori rd rs1 imm) s (.next (withRd s rd (a ^^^ b))) ∧
    Runs (iType imm rs1 6 rd 0x13) (.ori rd rs1 imm) s (.next (withRd s rd (a ||| b))) ∧
    Runs (iType imm rs1 7 rd 0x13) (.andi rd rs1 imm) s (.next (withRd s rd (a &&& b))) ∧
    Runs (shift6Type 0x00 sh rs1 1 rd 0x13) (.slli rd rs1 sh) s (.next (withRd s rd (a <<< sh.toNat))) ∧
    Runs (shift6Type 0x00 sh rs1 5 rd 0x13) (.srli rd rs1 sh) s (.next (withRd s rd (BitVec.ofNat 64 (a.toNat / 2 ^ sh.toNat)))) ∧
    Runs (shift6Type 0x10 sh rs1 5 rd 0x13) (.srai rd rs1 sh) s (.next (withRd s rd (BitVec.ofInt 64 (a.toInt / 2 ^ sh.toNat))))

/-- R181 to R184: a 32-bit result of the low word, sign-extended from bit 31. -/
def Obligations.OpImm32 : Prop :=
  ∀ (rd rs1 : Reg) (imm : BitVec 12) (sh : BitVec 5) (s : State) (a : BitVec 32), a = (getReg s rs1).setWidth 32 →
    Runs (iType imm rs1 0 rd 0x1B) (.addiw rd rs1 imm) s (.next (withRd s rd ((a + imm.signExtend 32).signExtend 64))) ∧
    Runs (rType 0x00 sh rs1 1 rd 0x1B) (.slliw rd rs1 sh) s (.next (withRd s rd ((a <<< sh.toNat).signExtend 64))) ∧
    Runs (rType 0x00 sh rs1 5 rd 0x1B) (.srliw rd rs1 sh) s (.next (withRd s rd ((BitVec.ofNat 32 (a.toNat / 2 ^ sh.toNat)).signExtend 64))) ∧
    Runs (rType 0x20 sh rs1 5 rd 0x1B) (.sraiw rd rs1 sh) s (.next (withRd s rd (BitVec.ofInt 64 (a.toInt / 2 ^ sh.toNat))))

/-- R191 to R200: encoding and result of each; shifts use the low six bits of x[rs2]. -/
def Obligations.RegisterOps : Prop :=
  ∀ (rd rs1 rs2 : Reg) (s : State) (a b : Word), a = getReg s rs1 → b = getReg s rs2 →
    Runs (rType 0x00 rs2 rs1 0 rd 0x33) (.add rd rs1 rs2) s (.next (withRd s rd (a + b))) ∧
    Runs (rType 0x20 rs2 rs1 0 rd 0x33) (.sub rd rs1 rs2) s (.next (withRd s rd (a - b))) ∧
    Runs (rType 0x00 rs2 rs1 1 rd 0x33) (.sll rd rs1 rs2) s (.next (withRd s rd (a <<< (b.toNat % 64)))) ∧
    Runs (rType 0x00 rs2 rs1 2 rd 0x33) (.slt rd rs1 rs2) s (.next (withRd s rd (if a.toInt < b.toInt then 1 else 0))) ∧
    Runs (rType 0x00 rs2 rs1 3 rd 0x33) (.sltu rd rs1 rs2) s (.next (withRd s rd (if a.toNat < b.toNat then 1 else 0))) ∧
    Runs (rType 0x00 rs2 rs1 4 rd 0x33) (.xor rd rs1 rs2) s (.next (withRd s rd (a ^^^ b))) ∧
    Runs (rType 0x00 rs2 rs1 5 rd 0x33) (.srl rd rs1 rs2) s (.next (withRd s rd (BitVec.ofNat 64 (a.toNat / 2 ^ (b.toNat % 64))))) ∧
    Runs (rType 0x20 rs2 rs1 5 rd 0x33) (.sra rd rs1 rs2) s (.next (withRd s rd (BitVec.ofInt 64 (a.toInt / 2 ^ (b.toNat % 64))))) ∧
    Runs (rType 0x00 rs2 rs1 6 rd 0x33) (.or rd rs1 rs2) s (.next (withRd s rd (a ||| b))) ∧
    Runs (rType 0x00 rs2 rs1 7 rd 0x33) (.and rd rs1 rs2) s (.next (withRd s rd (a &&& b)))

/-- R202 to R206: only the low words of the sources count; the result is sign-extended from bit 31. -/
def Obligations.RegisterOps32 : Prop :=
  ∀ (rd rs1 rs2 : Reg) (s : State) (a b : BitVec 32), a = (getReg s rs1).setWidth 32 → b = (getReg s rs2).setWidth 32 →
    Runs (rType 0x00 rs2 rs1 0 rd 0x3B) (.addw rd rs1 rs2) s (.next (withRd s rd ((a + b).signExtend 64))) ∧
    Runs (rType 0x20 rs2 rs1 0 rd 0x3B) (.subw rd rs1 rs2) s (.next (withRd s rd ((a - b).signExtend 64))) ∧
    Runs (rType 0x00 rs2 rs1 1 rd 0x3B) (.sllw rd rs1 rs2) s (.next (withRd s rd ((a <<< (b.toNat % 32)).signExtend 64))) ∧
    Runs (rType 0x00 rs2 rs1 5 rd 0x3B) (.srlw rd rs1 rs2) s (.next (withRd s rd ((BitVec.ofNat 32 (a.toNat / 2 ^ (b.toNat % 32))).signExtend 64))) ∧
    Runs (rType 0x20 rs2 rs1 5 rd 0x3B) (.sraw rd rs1 rs2) s (.next (withRd s rd (BitVec.ofInt 64 (a.toInt / 2 ^ (b.toNat % 32)))))

/-- R211 to R214, R226: low half, and the high half of the exact product with each operand read by its signedness
(integer division here rounds down). -/
def Obligations.Multiply : Prop :=
  ∀ (rd rs1 rs2 : Reg) (s : State) (a b : Word), a = getReg s rs1 → b = getReg s rs2 →
    Runs (rType 0x01 rs2 rs1 0 rd 0x33) (.mul rd rs1 rs2) s (.next (withRd s rd (BitVec.ofNat 64 (a.toNat * b.toNat)))) ∧
    Runs (rType 0x01 rs2 rs1 1 rd 0x33) (.mulh rd rs1 rs2) s (.next (withRd s rd (BitVec.ofInt 64 (a.toInt * b.toInt / 2 ^ 64)))) ∧
    Runs (rType 0x01 rs2 rs1 2 rd 0x33) (.mulhsu rd rs1 rs2) s (.next (withRd s rd (BitVec.ofInt 64 (a.toInt * b.toNat / 2 ^ 64)))) ∧
    Runs (rType 0x01 rs2 rs1 3 rd 0x33) (.mulhu rd rs1 rs2) s (.next (withRd s rd (BitVec.ofNat 64 (a.toNat * b.toNat / 2 ^ 64))))

/-- R215 to R218, R225: by zero, overflow, truncation toward zero, sign of the remainder; nothing is raised. -/
def Obligations.Divide : Prop :=
  ∀ (rd rs1 rs2 : Reg) (s : State) (a b : Word), a = getReg s rs1 → b = getReg s rs2 →
    ∃ q r qu ru : Word, SignedDivision a b q r ∧ UnsignedDivision a b qu ru ∧
      Runs (rType 0x01 rs2 rs1 4 rd 0x33) (.div rd rs1 rs2) s (.next (withRd s rd (q))) ∧
      Runs (rType 0x01 rs2 rs1 5 rd 0x33) (.divu rd rs1 rs2) s (.next (withRd s rd (qu))) ∧
      Runs (rType 0x01 rs2 rs1 6 rd 0x33) (.rem rd rs1 rs2) s (.next (withRd s rd (r))) ∧
      Runs (rType 0x01 rs2 rs1 7 rd 0x33) (.remu rd rs1 rs2) s (.next (withRd s rd (ru)))

/-- R219 to R225: the laws at width 32 on the low words, the result sign-extended from bit 31. -/
def Obligations.WordMultiplyDivide : Prop :=
  ∀ (rd rs1 rs2 : Reg) (s : State) (a b : BitVec 32), a = (getReg s rs1).setWidth 32 → b = (getReg s rs2).setWidth 32 →
    ∃ q r qu ru : BitVec 32, SignedDivision a b q r ∧ UnsignedDivision a b qu ru ∧
      Runs (rType 0x01 rs2 rs1 0 rd 0x3B) (.mulw rd rs1 rs2) s (.next (withRd s rd ((BitVec.ofNat 32 (a.toNat * b.toNat)).signExtend 64))) ∧
      Runs (rType 0x01 rs2 rs1 4 rd 0x3B) (.divw rd rs1 rs2) s (.next (withRd s rd (q.signExtend 64))) ∧
      Runs (rType 0x01 rs2 rs1 5 rd 0x3B) (.divuw rd rs1 rs2) s (.next (withRd s rd (qu.signExtend 64))) ∧
      Runs (rType 0x01 rs2 rs1 6 rd 0x3B) (.remw rd rs1 rs2) s (.next (withRd s rd (r.signExtend 64))) ∧
      Runs (rType 0x01 rs2 rs1 7 rd 0x3B) (.remuw rd rs1 rs2) s (.next (withRd s rd (ru.signExtend 64)))

/-- R230 to R233: the link is pc + 4, the target is computed from the old registers, JALR clears bit 0 and does not
test funct3. `off` holds bits 20 to 1 of immJ. That JALR does not test funct3 and reads rs1 before it writes rd are
the spec's own decisions D14 and D12 (Assumption 13). -/
def Obligations.UpperImmediatesAndJumps : Prop :=
  ∀ (rd rs1 : Reg) (imm20 off : BitVec 20) (imm : BitVec 12) (f3 : BitVec 3) (s : State),
    Runs (uType imm20 rd 0x37) (.lui rd imm20) s (.next (withRd s rd ((imm20 ++ 0#12).signExtend 64))) ∧
    Runs (uType imm20 rd 0x17) (.auipc rd imm20) s (.next (withRd s rd (s.pc + (imm20 ++ 0#12).signExtend 64))) ∧
    Runs (jType (off ++ 0#1) rd 0x6F) (.jal rd (off ++ 0#1)) s
      (.next { withRd s rd (s.pc + 4) with pc := s.pc + (off ++ 0#1).signExtend 64 }) ∧
    Runs (iType imm rs1 f3 rd 0x67) (.jalr f3 rd rs1 imm) s
      (.next { withRd s rd (s.pc + 4) with pc := (getReg s rs1 + imm.signExtend 64) &&& ~~~1#64 })

/-- R242, R243: URET, SRET, MRET, WFI and SFENCE.VMA among them: pc + 4 and nothing else. The pc advance is the spec's
own decision D15 (Assumption 13). -/
def Obligations.SystemNoOps : Prop :=
  ∀ (rd rs1 : Reg) (imm : BitVec 12) (s : State),
    Runs (iType 1 rs1 0 rd 0x73) (.ebreak rd rs1) s (.next { s with pc := s.pc + 4 }) ∧
    (imm ≠ 0 → imm ≠ 1 → Runs (iType imm rs1 0 rd 0x73) (.rsvSystem0 rd rs1 imm) s (.next { s with pc := s.pc + 4 })) ∧
    (∀ w ∈ ([0x00200073, 0x10200073, 0x30200073, 0x10500073, 0x12000073] : List (BitVec 32)),
      exec (decode w) s = .next { s with pc := s.pc + 4 })

/-- R245 to R251, for every CSR number. That rd receives the 0 that is read is the spec's own decision D33 (Assumption
13). -/
def Obligations.CsrInstructions : Prop :=
  ∀ (rd rs1 : Reg) (csr : BitVec 12) (s : State),
    Runs (iType csr rs1 1 rd 0x73) (.csrrw rd rs1 csr) s (.next (withRd s rd 0)) ∧
    Runs (iType csr rs1 2 rd 0x73) (.csrrs rd rs1 csr) s (.next (withRd s rd 0)) ∧
    Runs (iType csr rs1 3 rd 0x73) (.csrrc rd rs1 csr) s (.next (withRd s rd 0)) ∧
    Runs (iType csr rs1 5 rd 0x73) (.csrrwi rd rs1 csr) s (.next (withRd s rd 0)) ∧
    Runs (iType csr rs1 6 rd 0x73) (.csrrsi rd rs1 csr) s (.next (withRd s rd 0)) ∧
    Runs (iType csr rs1 7 rd 0x73) (.csrrci rd rs1 csr) s (.next (withRd s rd 0))

/-- R330 to R337: pc + 4 and nothing else, for every word of opcodes 0x0F, 0x07, 0x27 and 0x53, with any proof blocks.
The words that no listed instruction takes and the registers left alone are the spec's own decisions D14 and D16
(Assumption 13). -/
def Obligations.FencesAndFloatingPoint : Prop :=
  ∀ (rd rs1 : Reg) (imm : BitVec 12) (f3 : BitVec 3) (rest : BitVec 25) (s : State),
    Runs (iType imm rs1 0 rd 0x0F) (.fence rd rs1 imm) s (.next { s with pc := s.pc + 4 }) ∧
    Runs (iType imm rs1 1 rd 0x0F) (.fenceI rd rs1 imm) s (.next { s with pc := s.pc + 4 }) ∧
    (f3 ≠ 0 → f3 ≠ 1 → Runs (iType imm rs1 f3 rd 0x0F) (.rsvMiscmem f3 rd rs1 imm) s (.next { s with pc := s.pc + 4 })) ∧
    Runs (anyType rest 0x07) (.fpLoad rest) s (.next { s with pc := s.pc + 4 }) ∧
    Runs (anyType rest 0x27) (.fpStore rest) s (.next { s with pc := s.pc + 4 }) ∧
    Runs (anyType rest 0x53) (.fpOp rest) s (.next { s with pc := s.pc + 4 })

/-- R262, R263: exitCode takes the low byte of a0, exited becomes 1; pc and the registers stay. -/
def Obligations.SyscallExit : Prop :=
  ∀ (rd rs1 : Reg) (s : State), getReg s 17 = 93 ∨ getReg s 17 = 94 →
    Runs (iType 0 rs1 0 rd 0x73) (.ecall rd rs1) s
      (.next { s with exitCode := (getReg s 10).setWidth 8, exited := 1 })

/-- R264, R265, R268 to R271, R274 to R276: result in x10, error number in x11, pc + 4. The wrap in mmap is the spec's
own decision D21, the full-width comparisons D25 (Assumption 13). -/
def Obligations.SyscallsWithoutMemory : Prop :=
  ∀ (rd rs1 : Reg) (s : State),
    (getReg s 17 = 214 → Runs (iType 0 rs1 0 rd 0x73) (.ecall rd rs1) s (.next (withReturn s 0x40000000 0))) ∧
    (getReg s 17 = 222 → getReg s 10 ≠ 0 → Runs (iType 0 rs1 0 rd 0x73) (.ecall rd rs1) s (.next (withReturn s (getReg s 10) 0))) ∧
    (getReg s 17 = 222 → getReg s 10 = 0 → Runs (iType 0 rs1 0 rd 0x73) (.ecall rd rs1) s
      (.next { withReturn s s.heap 0 with
        heap := s.heap + BitVec.ofNat 64 (((getReg s 11).toNat + 4095) % 2 ^ 64 / 4096 * 4096) })) ∧
    (getReg s 17 = 25 → getReg s 11 = 3 → getReg s 10 ∈ [0, 3, 5] → Runs (iType 0 rs1 0 rd 0x73) (.ecall rd rs1) s (.next (withReturn s 0 0))) ∧
    (getReg s 17 = 25 → getReg s 11 = 3 → getReg s 10 ∈ [1, 2, 4, 6] → Runs (iType 0 rs1 0 rd 0x73) (.ecall rd rs1) s (.next (withReturn s 1 0))) ∧
    (getReg s 17 = 25 → getReg s 11 = 3 → getReg s 10 ∉ [0, 1, 2, 3, 4, 5, 6] →
      Runs (iType 0 rs1 0 rd 0x73) (.ecall rd rs1) s (.next (withReturn s (-1) 0x4D))) ∧
    (getReg s 17 = 25 → getReg s 11 ≠ 3 → Runs (iType 0 rs1 0 rd 0x73) (.ecall rd rs1) s (.next (withReturn s (-1) 0x16))) ∧
    (getReg s 17 = 56 → Runs (iType 0 rs1 0 rd 0x73) (.ecall rd rs1) s (.next (withReturn s (-1) 0xD))) ∧
    (getReg s 17 ∈ [123, 134, 135, 132, 178] → Runs (iType 0 rs1 0 rd 0x73) (.ecall rd rs1) s (.next (withReturn s 0 0)))

/-- R266, R267: end of file, the claimed counts, and EBADF; the descriptors 5 and 6 have statements of their own. That
the descriptor is compared as a full 64-bit value is the spec's own decision D25 (Assumption 13). -/
def Obligations.SyscallDescriptors : Prop :=
  ∀ (rd rs1 : Reg) (s : State),
    (getReg s 17 = 63 → getReg s 10 = 0 → Runs (iType 0 rs1 0 rd 0x73) (.ecall rd rs1) s (.next (withReturn s 0 0))) ∧
    (getReg s 17 = 63 → getReg s 10 = 3 → Runs (iType 0 rs1 0 rd 0x73) (.ecall rd rs1) s (.next (withReturn s (getReg s 12) 0))) ∧
    (getReg s 17 = 63 → getReg s 10 ∉ [0, 3, 5] → Runs (iType 0 rs1 0 rd 0x73) (.ecall rd rs1) s (.next (withReturn s (-1) 0x4D))) ∧
    (getReg s 17 = 64 → getReg s 10 ∈ [1, 2, 4] → Runs (iType 0 rs1 0 rd 0x73) (.ecall rd rs1) s (.next (withReturn s (getReg s 12) 0))) ∧
    (getReg s 17 = 64 → getReg s 10 ∉ [1, 2, 4, 6] → Runs (iType 0 rs1 0 rd 0x73) (.ecall rd rs1) s (.next (withReturn s (-1) 0x4D)))

/-- R272, R273: sixteen bytes at a1 through proof blocks 1 and 2, 0/0 in x10 and x11; another resource reverts before
any access. What getrlimit writes and returns and the nanosecond literal are the spec's own decisions D19 and D24, the
full-width comparisons D25 (Assumption 13). The honest host is in the model's form (Assumption 4). -/
def Obligations.SyscallsThatStore : Prop :=
  ∀ (rd rs1 : Reg) (s : State),
    (getReg s 17 = 113 → Runs (iType 0 rs1 0 rd 0x73) (.ecall rd rs1) s
      (andThen (storeMem s (getReg s 11) 16 (1337 + 1337000000000 * 2 ^ 64) 1 2) fun t => .next (withReturn t 0 0))) ∧
    (getReg s 17 = 113 → HonestHost s → exec (.ecall rd rs1) s = .next (withReturn (written s (getReg s 11)
      (fun j => ([0x39, 0x05, 0, 0, 0, 0, 0, 0, 0x00, 0xFA, 0x68, 0x4B, 0x37, 0x01, 0x00, 0x00] : List Byte).getD j 0)
      16) 0 0)) ∧
    (getReg s 17 = 163 → getReg s 10 = 7 → Runs (iType 0 rs1 0 rd 0x73) (.ecall rd rs1) s
      (andThen (storeMem s (getReg s 11) 16 (1024 + 1024 * 2 ^ 64) 1 2) fun t => .next (withReturn t 0 0))) ∧
    (getReg s 17 = 163 → getReg s 10 = 7 → HonestHost s → exec (.ecall rd rs1) s = .next (withReturn
      (written s (getReg s 11)
        (fun j => ([0, 4, 0, 0, 0, 0, 0, 0, 0, 4, 0, 0, 0, 0, 0, 0] : List Byte).getD j 0) 16) 0 0)) ∧
    (getReg s 17 = 163 → getReg s 10 ≠ 7 → Runs (iType 0 rs1 0 rd 0x73) (.ecall rd rs1) s (.fault .unknownRlimit))

/-- R277. That the number is compared as a full 64-bit value is the spec's own decision D25, marked so in R260
(Assumption 13). -/
def Obligations.UnknownSyscallReverts : Prop :=
  ∀ (rd rs1 : Reg) (s : State),
    getReg s 17 ∉ ([25, 56, 63, 64, 93, 94, 113, 123, 132, 134, 135, 163, 178, 214, 222] : List Word) →
    Runs (iType 0 rs1 0 rd 0x73) (.ecall rd rs1) s (.fault .unknownSyscall)

/-- R22, R267, R281: the old key moves toward offset 0 by the clipped count, the bytes follow in address order, the
offset is reset. The shift by the clipped count is the spec's own decision D20 (C7), that a zero count runs as written
D27, the error number 0 D38 (Assumption 13). The last clause speaks of an honest host in the model's form (Assumption
4). -/
def Obligations.PreimageKeyWrite : Prop :=
  ∀ (rd rs1 : Reg) (s : State) (off n : Nat), getReg s 17 = 64 → getReg s 10 = 6 →
    off = (getReg s 11).toNat % 32 → n = min (getReg s 12).toNat (32 - off) →
    (∀ e, getMemoryB32 s (getReg s 11 &&& ~~~31#64) 1 = .fault e → exec (.ecall rd rs1) s = .fault e) ∧
    (∀ r, getMemoryB32 s (getReg s 11 &&& ~~~31#64) 1 = .refused r → exec (.ecall rd rs1) s = .refused r) ∧
    (∀ leaf, getMemoryB32 s (getReg s 11 &&& ~~~31#64) 1 = .next leaf → ∃ key : Bytes32,
      (∀ k, k < 32 → byteOf key k =
        if k + n < 32 then byteOf s.preimageKey (k + n) else byteOf leaf (off + (k + n - 32))) ∧
      exec (.ecall rd rs1) s =
        .next { withReturn s (BitVec.ofNat 64 n) 0 with preimageKey := key, preimageOffset := 0 }) ∧
    (HonestHost s → ∃ leaf, getMemoryB32 s (getReg s 11 &&& ~~~31#64) 1 = .next leaf ∧
      ∀ k, k < 32 → byteOf leaf k = s.mem.read (32 * ((getReg s 11).toNat / 32) + k))

/-- R39, R266, R282: one oracle query at key and offset; at the end nothing is touched; else the clipped bytes are
stored and the offset advances. The refusal above 32 is the spec's own decision D26, that a zero count runs as written
D27, the error number 0 D38 (Assumptions 11, 13); the honest host is in the model's form (Assumption 4), the table of
answers is the model's (Assumption 6). -/
def Obligations.PreimageValueRead : Prop :=
  ∀ (rd rs1 : Reg) (s : State), getReg s 17 = 63 → getReg s 10 = 5 →
    (oracleRead s s.preimageKey s.preimageOffset = .error → exec (.ecall rd rs1) s = .fault .badProof) ∧
    (∀ chunk length, oracleRead s s.preimageKey s.preimageOffset = .data chunk length →
      (32 < length.toNat → exec (.ecall rd rs1) s = .refused .oracleLength) ∧
      (length = 0 → exec (.ecall rd rs1) s = .next (withReturn s 0 0)) ∧
      (0 < length.toNat → length.toNat ≤ 32 → ∀ n,
        n = min (min (getReg s 12).toNat (32 - (getReg s 11).toNat % 32)) length.toNat →
        exec (.ecall rd rs1) s = (andThen
          (patchMemory s (leafBase (getReg s 11)) (leafOffset (getReg s 11)) n (byteOf chunk) 1) fun t =>
            .next { withReturn t (BitVec.ofNat 64 n) 0 with
              preimageOffset := s.preimageOffset + BitVec.ofNat 64 n }) ∧
        (∀ e, getMemoryB32 s (getReg s 11 &&& ~~~31#64) 1 = .fault e → exec (.ecall rd rs1) s = .fault e) ∧
        (∀ r, getMemoryB32 s (getReg s 11 &&& ~~~31#64) 1 = .refused r → exec (.ecall rd rs1) s = .refused r) ∧
        (∀ leaf, getMemoryB32 s (getReg s 11 &&& ~~~31#64) 1 = .next leaf → ∃ newLeaf t,
          (∀ k, k < 32 → byteOf newLeaf k =
            if (getReg s 11).toNat % 32 ≤ k ∧ k < (getReg s 11).toNat % 32 + n
              then byteOf chunk (k - (getReg s 11).toNat % 32) else byteOf leaf k) ∧
          setMemoryB32 s (getReg s 11 &&& ~~~31#64) newLeaf 1 (s.mem.store (getReg s 11) (byteOf chunk) n) = .next t ∧
          exec (.ecall rd rs1) s = .next { withReturn t (BitVec.ofNat 64 n) 0 with
            preimageOffset := s.preimageOffset + BitVec.ofNat 64 n }) ∧
        (HonestHost s → exec (.ecall rd rs1) s = .next
          { withReturn (written s (getReg s 11) (byteOf chunk) n) (BitVec.ofNat 64 n) 0 with
            preimageOffset := s.preimageOffset + BitVec.ofNat 64 n }))) ∧
    (∀ e ∈ s.oracleTable, e.key = s.preimageKey → e.offset = s.preimageOffset →
      ∃ e' ∈ s.oracleTable, e'.key = e.key ∧ e'.offset = e.offset ∧
        oracleRead s s.preimageKey s.preimageOffset = e'.answer)

/-- R303, R304: a sign-extended load through proof blocks 1 and 2 that reserves the exact address; rs2, aq and rl are
not looked at (R112, R327). The proof pair is the spec's own decision D7, that rs2 is ignored its decision D14
(Assumptions 12, 13). The completion clauses rest on R76 and R376 with an honest host in the model's form (Assumption
4). -/
def Obligations.LoadReserved : Prop :=
  ∀ (rd rs1 rs2 : Reg) (aq rl : BitVec 1) (s : State) (a : Word), a = getReg s rs1 →
    Runs (amoType 0x02 aq rl rs2 rs1 2 rd 0x2F) (.lrW rd rs1 rs2 aq rl) s
      (andThen (loadMem s a 4 true 1 2) fun v => .next { withRd s rd v with loadReservation := a }) ∧
    Runs (amoType 0x02 aq rl rs2 rs1 3 rd 0x2F) (.lrD rd rs1 rs2 aq rl) s
      (andThen (loadMem s a 8 true 1 2) fun v => .next { withRd s rd v with loadReservation := a }) ∧
    (HonestHost s → exec (.lrW rd rs1 rs2 aq rl) s =
      .next { withRd s rd ((wordAtAddr s a).signExtend 64) with loadReservation := a }) ∧
    (HonestHost s → exec (.lrD rd rs1 rs2 aq rl) s =
      .next { withRd s rd (doubleAt s a) with loadReservation := a })

/-- R302, R305, R306: success exactly when the address equals the reservation; 0 or 1 in rd; the reservation cleared
either way. The proof pair and the test without a validity bit are the spec's own decisions D17 and D18 (Assumption
13). The honest host is in the model's form (Assumption 4). -/
def Obligations.StoreConditional : Prop :=
  ∀ (rd rs1 rs2 : Reg) (aq rl : BitVec 1) (s : State) (a : Word), a = getReg s rs1 →
    Runs (amoType 0x03 aq rl rs2 rs1 2 rd 0x2F) (.scW rd rs1 rs2 aq rl) s
      (if a = s.loadReservation then
        andThen (storeMem s a 4 (getReg s rs2).toNat 1 3) fun t => .next { withRd t rd 0 with loadReservation := 0 }
      else .next { withRd s rd 1 with loadReservation := 0 }) ∧
    Runs (amoType 0x03 aq rl rs2 rs1 3 rd 0x2F) (.scD rd rs1 rs2 aq rl) s
      (if a = s.loadReservation then
        andThen (storeMem s a 8 (getReg s rs2).toNat 1 3) fun t => .next { withRd t rd 0 with loadReservation := 0 }
      else .next { withRd s rd 1 with loadReservation := 0 }) ∧
    (HonestHost s → a = s.loadReservation → exec (.scW rd rs1 rs2 aq rl) s =
      .next { withRd (written s a (fun j => (getReg s rs2).extractLsb' (8 * j) 8) 4) rd 0 with loadReservation := 0 }) ∧
    (HonestHost s → a = s.loadReservation → exec (.scD rd rs1 rs2 aq rl) s =
      .next { withRd (written s a (fun j => (getReg s rs2).extractLsb' (8 * j) 8) 8) rd 0 with loadReservation := 0 })

/-- R308 to R316, R307, R327: the old value goes to rd, the new one to memory; aq and rl change nothing. The 64-bit
operation on sign-extended operands that the spec gives stores the same four bytes as the 32-bit operation stated
here. The honest host is in the model's form (Assumption 4). -/
def Obligations.AtomicWords : Prop :=
  ∀ (rd rs1 rs2 : Reg) (aq rl : BitVec 1) (s : State) (a : Word) (old src : BitVec 32), HonestHost s → a = getReg s rs1 →
    old = wordAtAddr s a → src = (getReg s rs2).setWidth 32 →
    Runs (amoType 0x01 aq rl rs2 rs1 2 rd 0x2F) (.amoswapW rd rs1 rs2 aq rl) s
      (.next (withAtomic s rd a old (src) 4)) ∧
    Runs (amoType 0x00 aq rl rs2 rs1 2 rd 0x2F) (.amoaddW rd rs1 rs2 aq rl) s
      (.next (withAtomic s rd a old (old + src) 4)) ∧
    Runs (amoType 0x04 aq rl rs2 rs1 2 rd 0x2F) (.amoxorW rd rs1 rs2 aq rl) s
      (.next (withAtomic s rd a old (old ^^^ src) 4)) ∧
    Runs (amoType 0x0C aq rl rs2 rs1 2 rd 0x2F) (.amoandW rd rs1 rs2 aq rl) s
      (.next (withAtomic s rd a old (old &&& src) 4)) ∧
    Runs (amoType 0x08 aq rl rs2 rs1 2 rd 0x2F) (.amoorW rd rs1 rs2 aq rl) s
      (.next (withAtomic s rd a old (old ||| src) 4)) ∧
    Runs (amoType 0x10 aq rl rs2 rs1 2 rd 0x2F) (.amominW rd rs1 rs2 aq rl) s
      (.next (withAtomic s rd a old (if old.toInt < src.toInt then old else src) 4)) ∧
    Runs (amoType 0x14 aq rl rs2 rs1 2 rd 0x2F) (.amomaxW rd rs1 rs2 aq rl) s
      (.next (withAtomic s rd a old (if src.toInt < old.toInt then old else src) 4)) ∧
    Runs (amoType 0x18 aq rl rs2 rs1 2 rd 0x2F) (.amominuW rd rs1 rs2 aq rl) s
      (.next (withAtomic s rd a old (if old.toNat < src.toNat then old else src) 4)) ∧
    Runs (amoType 0x1C aq rl rs2 rs1 2 rd 0x2F) (.amomaxuW rd rs1 rs2 aq rl) s
      (.next (withAtomic s rd a old (if src.toNat < old.toNat then old else src) 4))

/-- R317 to R325, R307, R327: the old value goes to rd, the new one to memory; aq and rl change nothing. The honest
host is in the model's form (Assumption 4). -/
def Obligations.AtomicDoublewords : Prop :=
  ∀ (rd rs1 rs2 : Reg) (aq rl : BitVec 1) (s : State) (a : Word) (old src : Word), HonestHost s → a = getReg s rs1 →
    old = doubleAt s a → src = getReg s rs2 →
    Runs (amoType 0x01 aq rl rs2 rs1 3 rd 0x2F) (.amoswapD rd rs1 rs2 aq rl) s
      (.next (withAtomic s rd a old (src) 8)) ∧
    Runs (amoType 0x00 aq rl rs2 rs1 3 rd 0x2F) (.amoaddD rd rs1 rs2 aq rl) s
      (.next (withAtomic s rd a old (old + src) 8)) ∧
    Runs (amoType 0x04 aq rl rs2 rs1 3 rd 0x2F) (.amoxorD rd rs1 rs2 aq rl) s
      (.next (withAtomic s rd a old (old ^^^ src) 8)) ∧
    Runs (amoType 0x0C aq rl rs2 rs1 3 rd 0x2F) (.amoandD rd rs1 rs2 aq rl) s
      (.next (withAtomic s rd a old (old &&& src) 8)) ∧
    Runs (amoType 0x08 aq rl rs2 rs1 3 rd 0x2F) (.amoorD rd rs1 rs2 aq rl) s
      (.next (withAtomic s rd a old (old ||| src) 8)) ∧
    Runs (amoType 0x10 aq rl rs2 rs1 3 rd 0x2F) (.amominD rd rs1 rs2 aq rl) s
      (.next (withAtomic s rd a old (if old.toInt < src.toInt then old else src) 8)) ∧
    Runs (amoType 0x14 aq rl rs2 rs1 3 rd 0x2F) (.amomaxD rd rs1 rs2 aq rl) s
      (.next (withAtomic s rd a old (if src.toInt < old.toInt then old else src) 8)) ∧
    Runs (amoType 0x18 aq rl rs2 rs1 3 rd 0x2F) (.amominuD rd rs1 rs2 aq rl) s
      (.next (withAtomic s rd a old (if old.toNat < src.toNat then old else src) 8)) ∧
    Runs (amoType 0x1C aq rl rs2 rs1 3 rd 0x2F) (.amomaxuD rd rs1 rs2 aq rl) s
      (.next (withAtomic s rd a old (if src.toNat < old.toNat then old else src) 8))

/-- R73, R81, R307: the load through proof blocks 1 and 2, the store through 1 and 3, whatever the host supplies;
`src` of a .W form is sign-extended first. -/
def Obligations.AtomicsUseVerifiedAccesses : Prop :=
  ∀ (rd rs1 rs2 : Reg) (aq rl : BitVec 1) (s : State) (a : Word), a = getReg s rs1 →
    (∀ p ∈ ([
        (.amoswapW rd rs1 rs2 aq rl, fun _ src => src),
        (.amoaddW rd rs1 rs2 aq rl, fun old src => old + src),
        (.amoxorW rd rs1 rs2 aq rl, fun old src => old ^^^ src),
        (.amoandW rd rs1 rs2 aq rl, fun old src => old &&& src),
        (.amoorW rd rs1 rs2 aq rl, fun old src => old ||| src),
        (.amominW rd rs1 rs2 aq rl, fun old src => if old.toInt < src.toInt then old else src),
        (.amomaxW rd rs1 rs2 aq rl, fun old src => if src.toInt < old.toInt then old else src),
        (.amominuW rd rs1 rs2 aq rl, fun old src => if old.toNat < src.toNat then old else src),
        (.amomaxuW rd rs1 rs2 aq rl, fun old src => if src.toNat < old.toNat then old else src)] : List (Instr × (Word → Word → Word))),
      exec p.1 s = andThen (loadMem s a 4 true 1 2) fun old =>
        andThen (storeMem s a 4 (p.2 old (((getReg s rs2).setWidth 32).signExtend 64)).toNat 1 3) fun t =>
          .next (withRd t rd old)) ∧
    (∀ p ∈ ([
        (.amoswapD rd rs1 rs2 aq rl, fun _ src => src),
        (.amoaddD rd rs1 rs2 aq rl, fun old src => old + src),
        (.amoxorD rd rs1 rs2 aq rl, fun old src => old ^^^ src),
        (.amoandD rd rs1 rs2 aq rl, fun old src => old &&& src),
        (.amoorD rd rs1 rs2 aq rl, fun old src => old ||| src),
        (.amominD rd rs1 rs2 aq rl, fun old src => if old.toInt < src.toInt then old else src),
        (.amomaxD rd rs1 rs2 aq rl, fun old src => if src.toInt < old.toInt then old else src),
        (.amominuD rd rs1 rs2 aq rl, fun old src => if old.toNat < src.toNat then old else src),
        (.amomaxuD rd rs1 rs2 aq rl, fun old src => if src.toNat < old.toNat then old else src)] : List (Instr × (Word → Word → Word))),
      exec p.1 s = andThen (loadMem s a 8 true 1 2) fun old =>
        andThen (storeMem s a 8 (p.2 old (getReg s rs2)).toNat 1 3) fun t => .next (withRd t rd old))

end
end

