-- ==== Sys2Proof/Laws/Bytes.lean ====
section
/-! SUPPORT. Byte values: a value and its bytes determine each other, little-endian and big-endian, and a 32-byte string
is its 32 bytes. -/

namespace Sys2Proof.Machine

theorem eager_eq {α : Type} (a : Nat) (f : Nat → α) : eager a f = f a := by cases a <;> rfl

theorem toNat_valueByte (v j : Nat) : (valueByte v j).toNat = v / 256 ^ j % 256 := by
  simp only [valueByte, BitVec.toNat_ofNat, Nat.shiftRight_eq_div_pow, Nat.pow_mul]

theorem leValue_lt (n : Nat) (f : Nat → Byte) : leValue n f < 256 ^ n := by
  induction n generalizing f with
  | zero => simp [leValue]
  | succ n ih =>
    have h0 := (f 0).isLt
    have h := ih (fun j => f (j + 1))
    simp only [leValue, Nat.pow_succ]
    omega

theorem beValue_lt (n : Nat) (f : Nat → Byte) : beValue n f < 256 ^ n := by
  induction n with
  | zero => simp [beValue]
  | succ n ih =>
    have h0 := (f n).isLt
    simp only [beValue, Nat.pow_succ]
    omega

/-- The bytes of a little-endian value are the bytes it was made of. -/
theorem valueByte_leValue (n : Nat) (f : Nat → Byte) (j : Nat) (h : j < n) : valueByte (leValue n f) j = f j := by
  apply BitVec.eq_of_toNat_eq
  rw [toNat_valueByte]
  induction n generalizing f j with
  | zero => omega
  | succ n ih =>
    have h0 := (f 0).isLt
    cases j with
    | zero => simp only [leValue, Nat.pow_zero, Nat.div_one]; omega
    | succ j =>
      have hj := ih (fun j => f (j + 1)) j (by omega)
      simp only [leValue, Nat.pow_succ, Nat.mul_comm (256 ^ j) 256, ← Nat.div_div_eq_div_mul]
      rw [show ((f 0).toNat + 256 * leValue n fun j => f (j + 1)) / 256 = leValue n fun j => f (j + 1) by omega]
      exact hj

/-- The little-endian value of the low `n` bytes of `v` is `v` modulo `256^n`. -/
theorem leValue_valueByte (n v k : Nat) : leValue n (fun j => valueByte v (k + j)) = v / 256 ^ k % 256 ^ n := by
  induction n generalizing k with
  | zero => simp [leValue, Nat.mod_one]
  | succ n ih =>
    have hshift : (fun j => valueByte v (k + (j + 1))) = fun j => valueByte v (k + 1 + j) := by
      funext j
      rw [Nat.add_right_comm, ← Nat.add_assoc]
    rw [leValue, hshift, ih (k + 1), toNat_valueByte, Nat.add_zero, Nat.pow_succ 256 k, ← Nat.div_div_eq_div_mul,
      Nat.pow_succ 256 n, Nat.mul_comm (256 ^ n) 256, Nat.mod_mul]

theorem leValue_congr (n : Nat) (f g : Nat → Byte) (h : ∀ j, j < n → f j = g j) : leValue n f = leValue n g := by
  induction n generalizing f g with
  | zero => rfl
  | succ n ih =>
    simp only [leValue]
    rw [h 0 (by omega), ih _ _ (fun j hj => h (j + 1) (by omega))]

theorem beValue_congr (n : Nat) (f g : Nat → Byte) (h : ∀ j, j < n → f j = g j) : beValue n f = beValue n g := by
  induction n with
  | zero => rfl
  | succ n ih =>
    simp only [beValue]
    rw [h n (by omega), ih (fun j hj => h j (by omega))]

theorem beValue_div (n k : Nat) (f : Nat → Byte) (h : k ≤ n) : beValue n f / 256 ^ (n - k) = beValue k f := by
  induction n with
  | zero => simp_all
  | succ n ih =>
    by_cases hk : k = n + 1
    · simp [hk]
    · have h0 := (f n).isLt
      rw [show n + 1 - k = (n - k) + 1 by omega, Nat.pow_succ, Nat.mul_comm, ← Nat.div_div_eq_div_mul]
      simp only [beValue]
      rw [show (beValue n f * 256 + (f n).toNat) / 256 = beValue n f by omega]
      exact ih (by omega)

/-- Byte `k` of the string made of the bytes `f`. -/
theorem byteOf_bytes32Of (f : Nat → Byte) (k : Nat) (h : k < 32) : byteOf (bytes32Of f) k = f k := by
  apply BitVec.eq_of_toNat_eq
  have hlt : beValue 32 f < 2 ^ 256 := beValue_lt 32 f
  rw [byteOf, toNat_valueByte, bytes32Of, BitVec.toNat_ofNat, Nat.mod_eq_of_lt hlt]
  rw [show 31 - k = 32 - (k + 1) by omega, beValue_div 32 (k + 1) f (by omega)]
  have := (f k).isLt
  simp only [beValue]
  omega

theorem bytes32Of_congr (f g : Nat → Byte) (h : ∀ j, j < 32 → f j = g j) : bytes32Of f = bytes32Of g := by
  rw [bytes32Of, bytes32Of, beValue_congr 32 f g h]

/-- A 32-byte string is determined by its bytes. -/
theorem bytes32Of_byteOf (b : Bytes32) : bytes32Of (byteOf b) = b := by
  have key : ∀ n, n ≤ 32 → beValue n (byteOf b) = b.toNat / 256 ^ (32 - n) := by
    intro n hn
    induction n with
    | zero =>
      have := b.isLt
      simp only [beValue]
      exact (Nat.div_eq_of_lt (by norm_num; omega)).symm
    | succ n ih =>
      have hstep : b.toNat / 256 ^ (32 - (n + 1)) / 256 = b.toNat / 256 ^ (32 - n) := by
        rw [Nat.div_div_eq_div_mul, ← Nat.pow_succ]
        congr 2
        omega
      simp only [beValue]
      rw [ih (by omega), byteOf, toNat_valueByte, ← hstep, show 32 - (n + 1) = 31 - n by omega]
      omega
  apply BitVec.eq_of_toNat_eq
  have := b.isLt
  rw [bytes32Of, BitVec.toNat_ofNat, key 32 (by omega)]
  simp only [Nat.sub_self, Nat.pow_zero, Nat.div_one]
  exact Nat.mod_eq_of_lt (by omega)

theorem bytes32_ext (a b : Bytes32) (h : ∀ k, k < 32 → byteOf a k = byteOf b k) : a = b := by
  rw [← bytes32Of_byteOf a, ← bytes32Of_byteOf b]
  exact bytes32Of_congr _ _ h

end Sys2Proof.Machine
end

