-- ==== Sys2Proof/Laws/Decode.lean ====
section
/-! SUPPORT. The fields the decoder cuts out of a word of each format are the fields the format put there
(30_encoding.md R101 to R107, R110). -/

namespace Sys2Proof

theorem toNat_append_add {n m : Nat} (x : BitVec n) (y : BitVec m) :
    (x ++ y).toNat = x.toNat * 2 ^ m + y.toNat := by
  rw [BitVec.toNat_append, ← Nat.shiftLeft_add_eq_or_of_lt y.isLt, Nat.shiftLeft_eq]

@[simp] theorem opcodeOf_rType (f7 : BitVec 7) (rs2 rs1 : Reg) (f3 : BitVec 3) (rd : Reg) (op : BitVec 7) :
    opcodeOf (rType f7 rs2 rs1 f3 rd op) = op := by
  apply BitVec.eq_of_toNat_eq
  simp only [opcodeOf, rType, BitVec.extractLsb'_toNat, toNat_append_add, Nat.shiftRight_eq_div_pow]
  omega
@[simp] theorem rdOf_rType (f7 : BitVec 7) (rs2 rs1 : Reg) (f3 : BitVec 3) (rd : Reg) (op : BitVec 7) :
    rdOf (rType f7 rs2 rs1 f3 rd op) = rd := by
  apply BitVec.eq_of_toNat_eq
  simp only [rdOf, rType, BitVec.extractLsb'_toNat, toNat_append_add, Nat.shiftRight_eq_div_pow]
  omega
@[simp] theorem funct3Of_rType (f7 : BitVec 7) (rs2 rs1 : Reg) (f3 : BitVec 3) (rd : Reg) (op : BitVec 7) :
    funct3Of (rType f7 rs2 rs1 f3 rd op) = f3 := by
  apply BitVec.eq_of_toNat_eq
  simp only [funct3Of, rType, BitVec.extractLsb'_toNat, toNat_append_add, Nat.shiftRight_eq_div_pow]
  omega
@[simp] theorem rs1Of_rType (f7 : BitVec 7) (rs2 rs1 : Reg) (f3 : BitVec 3) (rd : Reg) (op : BitVec 7) :
    rs1Of (rType f7 rs2 rs1 f3 rd op) = rs1 := by
  apply BitVec.eq_of_toNat_eq
  simp only [rs1Of, rType, BitVec.extractLsb'_toNat, toNat_append_add, Nat.shiftRight_eq_div_pow]
  omega
@[simp] theorem rs2Of_rType (f7 : BitVec 7) (rs2 rs1 : Reg) (f3 : BitVec 3) (rd : Reg) (op : BitVec 7) :
    rs2Of (rType f7 rs2 rs1 f3 rd op) = rs2 := by
  apply BitVec.eq_of_toNat_eq
  simp only [rs2Of, rType, BitVec.extractLsb'_toNat, toNat_append_add, Nat.shiftRight_eq_div_pow]
  omega
@[simp] theorem funct7Of_rType (f7 : BitVec 7) (rs2 rs1 : Reg) (f3 : BitVec 3) (rd : Reg) (op : BitVec 7) :
    funct7Of (rType f7 rs2 rs1 f3 rd op) = f7 := by
  apply BitVec.eq_of_toNat_eq
  simp only [funct7Of, rType, BitVec.extractLsb'_toNat, toNat_append_add, Nat.shiftRight_eq_div_pow]
  omega

@[simp] theorem opcodeOf_iType (imm : BitVec 12) (rs1 : Reg) (f3 : BitVec 3) (rd : Reg) (op : BitVec 7) :
    opcodeOf (iType imm rs1 f3 rd op) = op := by
  apply BitVec.eq_of_toNat_eq
  simp only [opcodeOf, iType, BitVec.extractLsb'_toNat, toNat_append_add, Nat.shiftRight_eq_div_pow]
  omega
@[simp] theorem rdOf_iType (imm : BitVec 12) (rs1 : Reg) (f3 : BitVec 3) (rd : Reg) (op : BitVec 7) :
    rdOf (iType imm rs1 f3 rd op) = rd := by
  apply BitVec.eq_of_toNat_eq
  simp only [rdOf, iType, BitVec.extractLsb'_toNat, toNat_append_add, Nat.shiftRight_eq_div_pow]
  omega
@[simp] theorem funct3Of_iType (imm : BitVec 12) (rs1 : Reg) (f3 : BitVec 3) (rd : Reg) (op : BitVec 7) :
    funct3Of (iType imm rs1 f3 rd op) = f3 := by
  apply BitVec.eq_of_toNat_eq
  simp only [funct3Of, iType, BitVec.extractLsb'_toNat, toNat_append_add, Nat.shiftRight_eq_div_pow]
  omega
@[simp] theorem rs1Of_iType (imm : BitVec 12) (rs1 : Reg) (f3 : BitVec 3) (rd : Reg) (op : BitVec 7) :
    rs1Of (iType imm rs1 f3 rd op) = rs1 := by
  apply BitVec.eq_of_toNat_eq
  simp only [rs1Of, iType, BitVec.extractLsb'_toNat, toNat_append_add, Nat.shiftRight_eq_div_pow]
  omega
@[simp] theorem immIOf_iType (imm : BitVec 12) (rs1 : Reg) (f3 : BitVec 3) (rd : Reg) (op : BitVec 7) :
    immIOf (iType imm rs1 f3 rd op) = imm := by
  apply BitVec.eq_of_toNat_eq
  simp only [immIOf, iType, BitVec.extractLsb'_toNat, toNat_append_add, Nat.shiftRight_eq_div_pow]
  omega

@[simp] theorem opcodeOf_sType (imm : BitVec 12) (rs2 rs1 : Reg) (f3 : BitVec 3) (op : BitVec 7) :
    opcodeOf (sType imm rs2 rs1 f3 op) = op := by
  rw [sType]
  generalize imm.extractLsb' 5 7 = p0
  generalize imm.extractLsb' 0 5 = p1
  apply BitVec.eq_of_toNat_eq
  simp only [opcodeOf, BitVec.extractLsb'_toNat, toNat_append_add, Nat.shiftRight_eq_div_pow]
  omega
@[simp] theorem funct3Of_sType (imm : BitVec 12) (rs2 rs1 : Reg) (f3 : BitVec 3) (op : BitVec 7) :
    funct3Of (sType imm rs2 rs1 f3 op) = f3 := by
  rw [sType]
  generalize imm.extractLsb' 5 7 = p0
  generalize imm.extractLsb' 0 5 = p1
  apply BitVec.eq_of_toNat_eq
  simp only [funct3Of, BitVec.extractLsb'_toNat, toNat_append_add, Nat.shiftRight_eq_div_pow]
  omega
@[simp] theorem rs1Of_sType (imm : BitVec 12) (rs2 rs1 : Reg) (f3 : BitVec 3) (op : BitVec 7) :
    rs1Of (sType imm rs2 rs1 f3 op) = rs1 := by
  rw [sType]
  generalize imm.extractLsb' 5 7 = p0
  generalize imm.extractLsb' 0 5 = p1
  apply BitVec.eq_of_toNat_eq
  simp only [rs1Of, BitVec.extractLsb'_toNat, toNat_append_add, Nat.shiftRight_eq_div_pow]
  omega
@[simp] theorem rs2Of_sType (imm : BitVec 12) (rs2 rs1 : Reg) (f3 : BitVec 3) (op : BitVec 7) :
    rs2Of (sType imm rs2 rs1 f3 op) = rs2 := by
  rw [sType]
  generalize imm.extractLsb' 5 7 = p0
  generalize imm.extractLsb' 0 5 = p1
  apply BitVec.eq_of_toNat_eq
  simp only [rs2Of, BitVec.extractLsb'_toNat, toNat_append_add, Nat.shiftRight_eq_div_pow]
  omega

@[simp] theorem opcodeOf_bType (imm : BitVec 13) (rs2 rs1 : Reg) (f3 : BitVec 3) (op : BitVec 7) :
    opcodeOf (bType imm rs2 rs1 f3 op) = op := by
  rw [bType]
  generalize imm.extractLsb' 12 1 = p0
  generalize imm.extractLsb' 5 6 = p1
  generalize imm.extractLsb' 1 4 = p2
  generalize imm.extractLsb' 11 1 = p3
  apply BitVec.eq_of_toNat_eq
  simp only [opcodeOf, BitVec.extractLsb'_toNat, toNat_append_add, Nat.shiftRight_eq_div_pow]
  omega
@[simp] theorem funct3Of_bType (imm : BitVec 13) (rs2 rs1 : Reg) (f3 : BitVec 3) (op : BitVec 7) :
    funct3Of (bType imm rs2 rs1 f3 op) = f3 := by
  rw [bType]
  generalize imm.extractLsb' 12 1 = p0
  generalize imm.extractLsb' 5 6 = p1
  generalize imm.extractLsb' 1 4 = p2
  generalize imm.extractLsb' 11 1 = p3
  apply BitVec.eq_of_toNat_eq
  simp only [funct3Of, BitVec.extractLsb'_toNat, toNat_append_add, Nat.shiftRight_eq_div_pow]
  omega
@[simp] theorem rs1Of_bType (imm : BitVec 13) (rs2 rs1 : Reg) (f3 : BitVec 3) (op : BitVec 7) :
    rs1Of (bType imm rs2 rs1 f3 op) = rs1 := by
  rw [bType]
  generalize imm.extractLsb' 12 1 = p0
  generalize imm.extractLsb' 5 6 = p1
  generalize imm.extractLsb' 1 4 = p2
  generalize imm.extractLsb' 11 1 = p3
  apply BitVec.eq_of_toNat_eq
  simp only [rs1Of, BitVec.extractLsb'_toNat, toNat_append_add, Nat.shiftRight_eq_div_pow]
  omega
@[simp] theorem rs2Of_bType (imm : BitVec 13) (rs2 rs1 : Reg) (f3 : BitVec 3) (op : BitVec 7) :
    rs2Of (bType imm rs2 rs1 f3 op) = rs2 := by
  rw [bType]
  generalize imm.extractLsb' 12 1 = p0
  generalize imm.extractLsb' 5 6 = p1
  generalize imm.extractLsb' 1 4 = p2
  generalize imm.extractLsb' 11 1 = p3
  apply BitVec.eq_of_toNat_eq
  simp only [rs2Of, BitVec.extractLsb'_toNat, toNat_append_add, Nat.shiftRight_eq_div_pow]
  omega

@[simp] theorem opcodeOf_uType (imm : BitVec 20) (rd : Reg) (op : BitVec 7) :
    opcodeOf (uType imm rd op) = op := by
  apply BitVec.eq_of_toNat_eq
  simp only [opcodeOf, uType, BitVec.extractLsb'_toNat, toNat_append_add, Nat.shiftRight_eq_div_pow]
  omega
@[simp] theorem rdOf_uType (imm : BitVec 20) (rd : Reg) (op : BitVec 7) :
    rdOf (uType imm rd op) = rd := by
  apply BitVec.eq_of_toNat_eq
  simp only [rdOf, uType, BitVec.extractLsb'_toNat, toNat_append_add, Nat.shiftRight_eq_div_pow]
  omega
@[simp] theorem immUOf_uType (imm : BitVec 20) (rd : Reg) (op : BitVec 7) :
    immUOf (uType imm rd op) = imm := by
  apply BitVec.eq_of_toNat_eq
  simp only [immUOf, uType, BitVec.extractLsb'_toNat, toNat_append_add, Nat.shiftRight_eq_div_pow]
  omega

@[simp] theorem opcodeOf_jType (imm : BitVec 21) (rd : Reg) (op : BitVec 7) :
    opcodeOf (jType imm rd op) = op := by
  rw [jType]
  generalize imm.extractLsb' 20 1 = p0
  generalize imm.extractLsb' 1 10 = p1
  generalize imm.extractLsb' 11 1 = p2
  generalize imm.extractLsb' 12 8 = p3
  apply BitVec.eq_of_toNat_eq
  simp only [opcodeOf, BitVec.extractLsb'_toNat, toNat_append_add, Nat.shiftRight_eq_div_pow]
  omega
@[simp] theorem rdOf_jType (imm : BitVec 21) (rd : Reg) (op : BitVec 7) :
    rdOf (jType imm rd op) = rd := by
  rw [jType]
  generalize imm.extractLsb' 20 1 = p0
  generalize imm.extractLsb' 1 10 = p1
  generalize imm.extractLsb' 11 1 = p2
  generalize imm.extractLsb' 12 8 = p3
  apply BitVec.eq_of_toNat_eq
  simp only [rdOf, BitVec.extractLsb'_toNat, toNat_append_add, Nat.shiftRight_eq_div_pow]
  omega

@[simp] theorem opcodeOf_shift6Type (f6 : BitVec 6) (shamt : BitVec 6) (rs1 : Reg) (f3 : BitVec 3) (rd : Reg) (op : BitVec 7) :
    opcodeOf (shift6Type f6 shamt rs1 f3 rd op) = op := by
  apply BitVec.eq_of_toNat_eq
  simp only [opcodeOf, shift6Type, BitVec.extractLsb'_toNat, toNat_append_add, Nat.shiftRight_eq_div_pow]
  omega
@[simp] theorem rdOf_shift6Type (f6 : BitVec 6) (shamt : BitVec 6) (rs1 : Reg) (f3 : BitVec 3) (rd : Reg) (op : BitVec 7) :
    rdOf (shift6Type f6 shamt rs1 f3 rd op) = rd := by
  apply BitVec.eq_of_toNat_eq
  simp only [rdOf, shift6Type, BitVec.extractLsb'_toNat, toNat_append_add, Nat.shiftRight_eq_div_pow]
  omega
@[simp] theorem funct3Of_shift6Type (f6 : BitVec 6) (shamt : BitVec 6) (rs1 : Reg) (f3 : BitVec 3) (rd : Reg) (op : BitVec 7) :
    funct3Of (shift6Type f6 shamt rs1 f3 rd op) = f3 := by
  apply BitVec.eq_of_toNat_eq
  simp only [funct3Of, shift6Type, BitVec.extractLsb'_toNat, toNat_append_add, Nat.shiftRight_eq_div_pow]
  omega
@[simp] theorem rs1Of_shift6Type (f6 : BitVec 6) (shamt : BitVec 6) (rs1 : Reg) (f3 : BitVec 3) (rd : Reg) (op : BitVec 7) :
    rs1Of (shift6Type f6 shamt rs1 f3 rd op) = rs1 := by
  apply BitVec.eq_of_toNat_eq
  simp only [rs1Of, shift6Type, BitVec.extractLsb'_toNat, toNat_append_add, Nat.shiftRight_eq_div_pow]
  omega
@[simp] theorem shamt6Of_shift6Type (f6 : BitVec 6) (shamt : BitVec 6) (rs1 : Reg) (f3 : BitVec 3) (rd : Reg) (op : BitVec 7) :
    shamt6Of (shift6Type f6 shamt rs1 f3 rd op) = shamt := by
  apply BitVec.eq_of_toNat_eq
  simp only [shamt6Of, shift6Type, BitVec.extractLsb'_toNat, toNat_append_add, Nat.shiftRight_eq_div_pow]
  omega
@[simp] theorem funct6Of_shift6Type (f6 : BitVec 6) (shamt : BitVec 6) (rs1 : Reg) (f3 : BitVec 3) (rd : Reg) (op : BitVec 7) :
    funct6Of (shift6Type f6 shamt rs1 f3 rd op) = f6 := by
  apply BitVec.eq_of_toNat_eq
  simp only [funct6Of, shift6Type, BitVec.extractLsb'_toNat, toNat_append_add, Nat.shiftRight_eq_div_pow]
  omega

@[simp] theorem opcodeOf_amoType (aop : BitVec 5) (aq rl : BitVec 1) (rs2 rs1 : Reg) (f3 : BitVec 3) (rd : Reg) (op : BitVec 7) :
    opcodeOf (amoType aop aq rl rs2 rs1 f3 rd op) = op := by
  apply BitVec.eq_of_toNat_eq
  simp only [opcodeOf, amoType, BitVec.extractLsb'_toNat, toNat_append_add, Nat.shiftRight_eq_div_pow]
  omega
@[simp] theorem rdOf_amoType (aop : BitVec 5) (aq rl : BitVec 1) (rs2 rs1 : Reg) (f3 : BitVec 3) (rd : Reg) (op : BitVec 7) :
    rdOf (amoType aop aq rl rs2 rs1 f3 rd op) = rd := by
  apply BitVec.eq_of_toNat_eq
  simp only [rdOf, amoType, BitVec.extractLsb'_toNat, toNat_append_add, Nat.shiftRight_eq_div_pow]
  omega
@[simp] theorem funct3Of_amoType (aop : BitVec 5) (aq rl : BitVec 1) (rs2 rs1 : Reg) (f3 : BitVec 3) (rd : Reg) (op : BitVec 7) :
    funct3Of (amoType aop aq rl rs2 rs1 f3 rd op) = f3 := by
  apply BitVec.eq_of_toNat_eq
  simp only [funct3Of, amoType, BitVec.extractLsb'_toNat, toNat_append_add, Nat.shiftRight_eq_div_pow]
  omega
@[simp] theorem rs1Of_amoType (aop : BitVec 5) (aq rl : BitVec 1) (rs2 rs1 : Reg) (f3 : BitVec 3) (rd : Reg) (op : BitVec 7) :
    rs1Of (amoType aop aq rl rs2 rs1 f3 rd op) = rs1 := by
  apply BitVec.eq_of_toNat_eq
  simp only [rs1Of, amoType, BitVec.extractLsb'_toNat, toNat_append_add, Nat.shiftRight_eq_div_pow]
  omega
@[simp] theorem rs2Of_amoType (aop : BitVec 5) (aq rl : BitVec 1) (rs2 rs1 : Reg) (f3 : BitVec 3) (rd : Reg) (op : BitVec 7) :
    rs2Of (amoType aop aq rl rs2 rs1 f3 rd op) = rs2 := by
  apply BitVec.eq_of_toNat_eq
  simp only [rs2Of, amoType, BitVec.extractLsb'_toNat, toNat_append_add, Nat.shiftRight_eq_div_pow]
  omega
@[simp] theorem amoOpOf_amoType (aop : BitVec 5) (aq rl : BitVec 1) (rs2 rs1 : Reg) (f3 : BitVec 3) (rd : Reg) (op : BitVec 7) :
    amoOpOf (amoType aop aq rl rs2 rs1 f3 rd op) = aop := by
  apply BitVec.eq_of_toNat_eq
  simp only [amoOpOf, amoType, BitVec.extractLsb'_toNat, toNat_append_add, Nat.shiftRight_eq_div_pow]
  omega
@[simp] theorem aqOf_amoType (aop : BitVec 5) (aq rl : BitVec 1) (rs2 rs1 : Reg) (f3 : BitVec 3) (rd : Reg) (op : BitVec 7) :
    aqOf (amoType aop aq rl rs2 rs1 f3 rd op) = aq := by
  apply BitVec.eq_of_toNat_eq
  simp only [aqOf, amoType, BitVec.extractLsb'_toNat, toNat_append_add, Nat.shiftRight_eq_div_pow]
  omega
@[simp] theorem rlOf_amoType (aop : BitVec 5) (aq rl : BitVec 1) (rs2 rs1 : Reg) (f3 : BitVec 3) (rd : Reg) (op : BitVec 7) :
    rlOf (amoType aop aq rl rs2 rs1 f3 rd op) = rl := by
  apply BitVec.eq_of_toNat_eq
  simp only [rlOf, amoType, BitVec.extractLsb'_toNat, toNat_append_add, Nat.shiftRight_eq_div_pow]
  omega

@[simp] theorem opcodeOf_anyType (rest : BitVec 25) (op : BitVec 7) :
    opcodeOf (anyType rest op) = op := by
  apply BitVec.eq_of_toNat_eq
  simp only [opcodeOf, anyType, BitVec.extractLsb'_toNat, toNat_append_add, Nat.shiftRight_eq_div_pow]
  omega
@[simp] theorem restOf_anyType (rest : BitVec 25) (op : BitVec 7) :
    restOf (anyType rest op) = rest := by
  apply BitVec.eq_of_toNat_eq
  simp only [restOf, anyType, BitVec.extractLsb'_toNat, toNat_append_add, Nat.shiftRight_eq_div_pow]
  omega

/-- The pieces of an S-type word's immediate. -/
theorem immSOf_pieces (b11 : BitVec 7) (rs2 rs1 : Reg) (f3 : BitVec 3) (b4 : BitVec 5) (op : BitVec 7) :
    immSOf (b11 ++ rs2 ++ rs1 ++ f3 ++ b4 ++ op) = b11 ++ b4 := by
  apply BitVec.eq_of_toNat_eq
  simp only [immSOf, BitVec.extractLsb'_toNat, toNat_append_add, Nat.shiftRight_eq_div_pow]
  omega

/-- An S-type word holds every bit of its immediate (R103). -/
@[simp] theorem immSOf_sType (imm : BitVec 12) (rs2 rs1 : Reg) (f3 : BitVec 3) (op : BitVec 7) :
    immSOf (sType imm rs2 rs1 f3 op) = imm := by
  rw [sType, immSOf_pieces]
  apply BitVec.eq_of_toNat_eq
  simp only [BitVec.extractLsb'_toNat, toNat_append_add, Nat.shiftRight_eq_div_pow]
  omega

/-- The pieces of a B-type word's immediate. -/
theorem immBOf_pieces (b12 : BitVec 1) (b10 : BitVec 6) (rs2 rs1 : Reg) (f3 : BitVec 3) (b4 : BitVec 4)
    (b11 : BitVec 1) (op : BitVec 7) :
    immBOf (b12 ++ b10 ++ rs2 ++ rs1 ++ f3 ++ b4 ++ b11 ++ op) = b12 ++ b11 ++ b10 ++ b4 ++ 0#1 := by
  have h0 : (b12 ++ b10 ++ rs2 ++ rs1 ++ f3 ++ b4 ++ b11 ++ op : BitVec 32).extractLsb' 31 1 = b12 := by
    apply BitVec.eq_of_toNat_eq
    simp only [BitVec.extractLsb'_toNat, toNat_append_add, Nat.shiftRight_eq_div_pow]
    omega
  have h1 : (b12 ++ b10 ++ rs2 ++ rs1 ++ f3 ++ b4 ++ b11 ++ op : BitVec 32).extractLsb' 7 1 = b11 := by
    apply BitVec.eq_of_toNat_eq
    simp only [BitVec.extractLsb'_toNat, toNat_append_add, Nat.shiftRight_eq_div_pow]
    omega
  have h2 : (b12 ++ b10 ++ rs2 ++ rs1 ++ f3 ++ b4 ++ b11 ++ op : BitVec 32).extractLsb' 25 6 = b10 := by
    apply BitVec.eq_of_toNat_eq
    simp only [BitVec.extractLsb'_toNat, toNat_append_add, Nat.shiftRight_eq_div_pow]
    omega
  have h3 : (b12 ++ b10 ++ rs2 ++ rs1 ++ f3 ++ b4 ++ b11 ++ op : BitVec 32).extractLsb' 8 4 = b4 := by
    apply BitVec.eq_of_toNat_eq
    simp only [BitVec.extractLsb'_toNat, toNat_append_add, Nat.shiftRight_eq_div_pow]
    omega
  rw [immBOf, h0, h1, h2, h3]

/-- The pieces of a J-type word's immediate. -/
theorem immJOf_pieces (b20 : BitVec 1) (b10 : BitVec 10) (b11 : BitVec 1) (b19 : BitVec 8) (rd : Reg)
    (op : BitVec 7) :
    immJOf (b20 ++ b10 ++ b11 ++ b19 ++ rd ++ op) = b20 ++ b19 ++ b11 ++ b10 ++ 0#1 := by
  have h0 : (b20 ++ b10 ++ b11 ++ b19 ++ rd ++ op : BitVec 32).extractLsb' 31 1 = b20 := by
    apply BitVec.eq_of_toNat_eq
    simp only [BitVec.extractLsb'_toNat, toNat_append_add, Nat.shiftRight_eq_div_pow]
    omega
  have h1 : (b20 ++ b10 ++ b11 ++ b19 ++ rd ++ op : BitVec 32).extractLsb' 12 8 = b19 := by
    apply BitVec.eq_of_toNat_eq
    simp only [BitVec.extractLsb'_toNat, toNat_append_add, Nat.shiftRight_eq_div_pow]
    omega
  have h2 : (b20 ++ b10 ++ b11 ++ b19 ++ rd ++ op : BitVec 32).extractLsb' 20 1 = b11 := by
    apply BitVec.eq_of_toNat_eq
    simp only [BitVec.extractLsb'_toNat, toNat_append_add, Nat.shiftRight_eq_div_pow]
    omega
  have h3 : (b20 ++ b10 ++ b11 ++ b19 ++ rd ++ op : BitVec 32).extractLsb' 21 10 = b10 := by
    apply BitVec.eq_of_toNat_eq
    simp only [BitVec.extractLsb'_toNat, toNat_append_add, Nat.shiftRight_eq_div_pow]
    omega
  rw [immJOf, h0, h1, h2, h3]

/-- A B-type word holds every bit of an even offset (R104). -/
theorem immBOf_bType (imm : BitVec 13) (rs2 rs1 : Reg) (f3 : BitVec 3) (op : BitVec 7)
    (h : (imm.getLsbD 0 == false) = true) : immBOf (bType imm rs2 rs1 f3 op) = imm := by
  have h0 : imm.toNat % 2 = 0 := by
    rw [beq_iff_eq, BitVec.getLsbD, Nat.testBit_zero] at h
    simpa using h
  rw [bType, immBOf_pieces]
  apply BitVec.eq_of_toNat_eq
  simp only [BitVec.extractLsb'_toNat, toNat_append_add, Nat.shiftRight_eq_div_pow, BitVec.toNat_ofNat]
  omega

/-- A J-type word holds every bit of an even offset (R106). -/
theorem immJOf_jType (imm : BitVec 21) (rd : Reg) (op : BitVec 7) (h : (imm.getLsbD 0 == false) = true) :
    immJOf (jType imm rd op) = imm := by
  have h0 : imm.toNat % 2 = 0 := by
    rw [beq_iff_eq, BitVec.getLsbD, Nat.testBit_zero] at h
    simpa using h
  rw [jType, immJOf_pieces]
  apply BitVec.eq_of_toNat_eq
  simp only [BitVec.extractLsb'_toNat, toNat_append_add, Nat.shiftRight_eq_div_pow, BitVec.toNat_ofNat]
  omega

end Sys2Proof
end

