-- ==== Sys2Proof/Laws/Memory.lean ====
section
/-! SUPPORT. The laws of the memory: what a read gives after a write, that every operation keeps the canonical form, and
that canonical memories with the same bytes are the same data. -/

namespace Sys2Proof.Machine

/-! ### Read after write -/

theorem read_filter (m : Memory) (a b : Nat) :
    Memory.read (m.filter (fun c => c.1 != a)) b = if b = a then 0 else m.read b := by
  induction m with
  | nil => simp [Memory.read]
  | cons c rest ih =>
    by_cases hc : c.1 = a
    · simp only [hc, bne_self_eq_false, Bool.false_eq_true, not_false_eq_true, List.filter_cons_of_neg, ih, Memory.read]
      split <;> simp_all
    · simp only [bne_iff_ne, ne_eq, hc, not_false_eq_true, List.filter_cons_of_pos, Memory.read, ih]
      by_cases hb : b = c.1
      · simp [hb, hc]
      · simp [hb]

theorem read_insertCell (m : Memory) (a b : Nat) (v : Byte) (h : ∀ c ∈ m, c.1 ≠ a) :
    (m.insertCell a v).read b = if b = a then v else m.read b := by
  induction m with
  | nil => simp [Memory.insertCell, Memory.read]
  | cons c rest ih =>
    have hc := h c (by simp)
    have hrest := ih (fun d hd => h d (by simp [hd]))
    simp only [Memory.insertCell]
    split
    · simp [Memory.read]
    · simp only [Memory.read, hrest]
      by_cases hb : b = a
      · simp [hb, Ne.symm hc]
      · simp [hb]

/-- A read after a write gives the value written at that address and the old byte everywhere else. -/
theorem read_write (m : Memory) (a b : Nat) (v : Byte) : (m.write a v).read b = if b = a then v else m.read b := by
  unfold Memory.write
  split
  · rename_i hv
    rw [read_filter, hv]
  · rw [read_insertCell _ _ _ _ (by simp), read_filter]
    split <;> simp_all

/-! ### The canonical form -/

theorem wf_nil : Memory.wf [] := by simp [Memory.wf]

theorem wf_filter (m : Memory) (a : Nat) (h : m.wf) : Memory.wf (m.filter (fun c => c.1 != a)) :=
  ⟨h.1.filter _, fun c hc => h.2 c (List.mem_of_mem_filter hc)⟩

theorem mem_insertCell (m : Memory) (a : Nat) (v : Byte) (c : Host.Cell) :
    c ∈ m.insertCell a v ↔ c = (a, v) ∨ c ∈ m := by
  induction m with
  | nil => simp [Memory.insertCell]
  | cons d rest ih =>
    simp only [Memory.insertCell]
    split
    · simp
    · simp only [List.mem_cons, ih]
      tauto

theorem wf_insertCell (m : Memory) (a : Nat) (v : Byte) (h : m.wf) (hfresh : ∀ c ∈ m, c.1 ≠ a) (ha : a < 2 ^ 64)
    (hv : v ≠ 0) : (m.insertCell a v).wf := by
  refine ⟨?_, ?_⟩
  · have hp := h.1
    clear h
    induction m with
    | nil => simp [Memory.insertCell]
    | cons c rest ih =>
      rw [List.pairwise_cons] at hp
      simp only [Memory.insertCell]
      split
      · rename_i hlt
        rw [List.pairwise_cons, List.pairwise_cons]
        refine ⟨fun d hd => ?_, hp⟩
        rcases List.mem_cons.mp hd with rfl | hd
        · exact hlt
        · exact Nat.lt_trans hlt (hp.1 d hd)
      · rename_i hge
        have hne := hfresh c (by simp)
        rw [List.pairwise_cons]
        refine ⟨fun d hd => ?_, ih (fun d hd => hfresh d (by simp [hd])) hp.2⟩
        rcases (mem_insertCell rest a v d).mp hd with rfl | hd
        · show c.1 < a
          omega
        · exact hp.1 d hd
  · intro c hc
    rcases (mem_insertCell m a v c).mp hc with rfl | hc
    · exact ⟨ha, hv⟩
    · exact h.2 c hc

/-- A write keeps the canonical form. -/
theorem write_wf (m : Memory) (a : Nat) (v : Byte) (h : m.wf) (ha : a < 2 ^ 64) : (m.write a v).wf := by
  unfold Memory.write
  split
  · exact wf_filter m a h
  · exact wf_insertCell _ a v (wf_filter m a h) (by simp) ha ‹_›

/-- The bytes of a store keep the canonical form. -/
theorem store_wf (m : Memory) (addr : Word) (f : Nat → Byte) (n : Nat) (h : m.wf) : (m.store addr f n).wf := by
  induction n with
  | zero => exact h
  | succ n ih => exact write_wf _ _ _ ih (BitVec.isLt _)

/-! ### Equal bytes, equal data -/

theorem read_of_lt_all (m : Memory) (a : Nat) (h : ∀ c ∈ m, a < c.1) : m.read a = 0 := by
  induction m with
  | nil => rfl
  | cons c rest ih =>
    have hc := h c (by simp)
    rw [Memory.read, if_neg (by omega)]
    exact ih (fun d hd => h d (by simp [hd]))

/-- Two memories in canonical form with the same bytes are the same list. -/
theorem memory_ext (m m' : Memory) (h : m.wf) (h' : m'.wf) (hread : ∀ a, m.read a = m'.read a) : m = m' := by
  induction m generalizing m' with
  | nil =>
    cases m' with
    | nil => rfl
    | cons c rest =>
      exact absurd (by simpa [Memory.read] using (hread c.1).symm) (h'.2 c (by simp)).2
  | cons c rest ih =>
    cases m' with
    | nil => exact absurd (by simpa [Memory.read] using hread c.1) (h.2 c (by simp)).2
    | cons d rest' =>
      have hp := List.pairwise_cons.mp h.1
      have hp' := List.pairwise_cons.mp h'.1
      have key : c.1 = d.1 := by
        rcases Nat.lt_trichotomy c.1 d.1 with hlt | heq | hgt
        · have hz := read_of_lt_all (d :: rest') c.1 (by
            intro e he
            rcases List.mem_cons.mp he with rfl | he
            · exact hlt
            · exact Nat.lt_trans hlt (hp'.1 e he))
          have := hread c.1
          rw [hz, Memory.read, if_pos rfl] at this
          exact absurd this (h.2 c (by simp)).2
        · exact heq
        · have hz := read_of_lt_all (c :: rest) d.1 (by
            intro e he
            rcases List.mem_cons.mp he with rfl | he
            · exact hgt
            · exact Nat.lt_trans hgt (hp.1 e he))
          have := hread d.1
          rw [hz, Memory.read, if_pos rfl] at this
          exact absurd this.symm (h'.2 d (by simp)).2
      have hval : c.2 = d.2 := by
        have := hread c.1
        rwa [Memory.read, if_pos rfl, Memory.read, if_pos key] at this
      have htail : rest = rest' := by
        apply ih rest' ⟨hp.2, fun e he => h.2 e (by simp [he])⟩ ⟨hp'.2, fun e he => h'.2 e (by simp [he])⟩
        intro a
        by_cases ha : a = c.1
        · rw [read_of_lt_all rest a (by intro e he; rw [ha]; exact hp.1 e he),
            read_of_lt_all rest' a (by intro e he; rw [ha, key]; exact hp'.1 e he)]
        · have := hread a
          rwa [Memory.read, if_neg ha, Memory.read, if_neg (by omega)] at this
      rw [htail, Prod.ext key hval]

/-! ### Little-endian access -/

theorem byteAddress_lt (addr : Word) (j : Nat) : byteAddress addr j < 2 ^ 64 := BitVec.isLt _

/-- The bytes of one access lie at different addresses. -/
theorem byteAddress_inj (addr : Word) (i j : Nat) (hi : i < 2 ^ 64) (hj : j < 2 ^ 64)
    (h : byteAddress addr i = byteAddress addr j) : i = j := by
  simp only [byteAddress, BitVec.toNat_add, BitVec.toNat_ofNat] at h
  omega

/-- Outside the bytes stored, memory is unchanged. -/
theorem read_store_other (m : Memory) (addr : Word) (f : Nat → Byte) (n a : Nat)
    (h : ∀ j, j < n → a ≠ byteAddress addr j) : (m.store addr f n).read a = m.read a := by
  induction n with
  | zero => rfl
  | succ n ih =>
    rw [Memory.store, read_write, if_neg (h n (by omega))]
    exact ih (fun j hj => h j (by omega))

/-- The bytes stored are read back. -/
theorem read_store_same (m : Memory) (addr : Word) (f : Nat → Byte) (n j : Nat) (hn : n ≤ 2 ^ 64) (hj : j < n) :
    (m.store addr f n).read (byteAddress addr j) = f j := by
  induction n with
  | zero => omega
  | succ n ih =>
    rw [Memory.store, read_write]
    by_cases h : j = n
    · rw [h, if_pos rfl]
    · rw [if_neg (fun he => h (byteAddress_inj addr j n (by omega) (by omega) he))]
      exact ih (by omega) (by omega)

/-- A load at the address of a store gives the value stored, cut to its width. -/
theorem load_store (m : Memory) (addr : Word) (v n : Nat) (hn : n ≤ 8) :
    (m.store addr (valueByte v) n).load addr n = BitVec.ofNat 64 (v % 256 ^ n) := by
  have h := leValue_valueByte n v 0
  simp only [Nat.zero_add, Nat.pow_zero, Nat.div_one] at h
  rw [Memory.load, ← h]
  congr 1
  exact leValue_congr _ _ _ (fun j hj => read_store_same m addr _ n j (by omega) hj)

/-- Storing `p + q` bytes is storing `p`, then `q` behind them. -/
theorem store_append (m : Memory) (addr : Word) (f : Nat → Byte) (p q : Nat) :
    (m.store addr f p).store (addr + BitVec.ofNat 64 p) (fun j => f (p + j)) q = m.store addr f (p + q) := by
  induction q with
  | zero => rfl
  | succ q ih =>
    rw [Memory.store, ih, ← Nat.add_assoc, Memory.store]
    congr 1
    simp [byteAddress, BitVec.add_assoc, BitVec.ofNat_add]

end Sys2Proof.Machine
end

