-- ==== Sys2Proof/Laws/Merkle.lean ====
section
/-! SUPPORT. The tree: the root the step uses is the root of 20_memory.md R61, and a store inside a leaf patches that
leaf and no other. -/

namespace Sys2Proof.Machine

theorem leafAt_of_untouched (m : Memory) (j : Nat) (h : touches m 0 j = false) : leafAt m j = 0 := by
  have hz : ∀ k, k < 32 → m.read (32 * j + k) = 0 := by
    intro k hk
    induction m with
    | nil => rfl
    | cons c rest ih =>
      simp only [touches, List.any_cons, Bool.or_eq_false_iff, beq_eq_false_iff_ne, ne_eq,
        Nat.shiftRight_eq_div_pow] at h ih
      rw [Memory.read, if_neg (by omega)]
      exact ih h.2
  rw [leafAt, bytes32Of_congr _ (fun _ => 0) hz]
  decide +kernel

theorem touches_false_child (m : Memory) (d j : Nat) (h : touches m (d + 1) j = false) :
    touches m d (2 * j) = false ∧ touches m d (2 * j + 1) = false := by
  have hdiv : ∀ a : Nat, a >>> (5 + (d + 1)) = a >>> (5 + d) / 2 := by
    intro a
    rw [← Nat.add_assoc, Nat.shiftRight_succ]
  simp only [touches, List.any_eq_false, beq_iff_eq, hdiv] at h ⊢
  refine ⟨fun c hc he => h c hc ?_, fun c hc he => h c hc ?_⟩ <;> omega

theorem zeroNodes_succ (d : Nat) :
    zeroNodes (d + 1) = hashPair ((zeroNodes d).headD 0) ((zeroNodes d).headD 0) :: zeroNodes d := by
  have hne : ∀ d, zeroNodes d ≠ [] := by
    intro d
    induction d with
    | zero => simp [zeroNodes]
    | succ d ih =>
      rw [zeroNodes]
      split
      · contradiction
      · simp [eager_eq]
  cases hd : zeroNodes d with
  | nil => exact absurd hd (hne d)
  | cons z zs => simp [zeroNodes, hd, eager_eq]

/-- An untouched subtree has the value of the all-zero subtree of its depth. -/
theorem merkleNode_of_untouched (m : Memory) (d j : Nat) (h : touches m d j = false) :
    merkleNode m d j = (zeroNodes d).headD 0 := by
  induction d generalizing j with
  | zero => exact leafAt_of_untouched m j h
  | succ d ih =>
    have hc := touches_false_child m d j h
    rw [merkleNode, ih _ hc.1, ih _ hc.2, zeroNodes_succ, List.headD_cons]

/-- The computation that skips untouched subtrees gives the node of R61. -/
theorem sparseNode_eq (m : Memory) (d j : Nat) : sparseNode m d (zeroNodes d) j = merkleNode m d j := by
  induction d generalizing j with
  | zero => rfl
  | succ d ih =>
    rw [sparseNode]
    split
    · simp only [eager_eq, BitVec.ofNat_toNat, BitVec.setWidth_eq]
      rw [zeroNodes_succ, List.tail_cons, ih, ih, merkleNode]
    · rename_i h
      rw [merkleNode_of_untouched m (d + 1) j (by simpa using h)]

/-- The root is `node(59, 0)` of R61. -/
theorem merkleRoot_eq (m : Memory) : merkleRoot m = merkleNode m merkleDepth 0 := by
  unfold merkleRoot
  exact sparseNode_eq m merkleDepth 0

theorem byteOf_leafAt (m : Memory) (j k : Nat) (h : k < 32) : byteOf (leafAt m j) k = m.read (32 * j + k) := by
  rw [leafAt, byteOf_bytes32Of _ _ h]

theorem byteOf_patchLeaf (leaf : Bytes32) (off n : Nat) (f : Nat → Byte) (k : Nat) (h : k < 32) :
    byteOf (patchLeaf leaf off n f) k = if off ≤ k ∧ k < off + n then f (k - off) else byteOf leaf k := by
  rw [patchLeaf, byteOf_bytes32Of _ _ h]

/-- A store inside leaf `j` patches that leaf. -/
theorem leafAt_store_same (m : Memory) (addr : Word) (f : Nat → Byte) (j off n : Nat)
    (ha : addr.toNat = 32 * j + off) (hn : off + n ≤ 32) :
    leafAt (m.store addr f n) j = patchLeaf (leafAt m j) off n f := by
  have hlt := addr.isLt
  have hb : ∀ i, i < n → byteAddress addr i = 32 * j + off + i := by
    intro i hi
    simp only [byteAddress, BitVec.toNat_add, BitVec.toNat_ofNat]
    omega
  apply bytes32_ext
  intro k hk
  rw [byteOf_leafAt _ _ _ hk, byteOf_patchLeaf _ _ _ _ _ hk]
  by_cases hin : off ≤ k ∧ k < off + n
  · rw [if_pos hin, show 32 * j + k = byteAddress addr (k - off) by rw [hb _ (by omega)]; omega]
    exact read_store_same m addr f n (k - off) (by omega) (by omega)
  · rw [if_neg hin, byteOf_leafAt _ _ _ hk]
    refine read_store_other m addr f n _ (fun i hi he => hin ?_)
    rw [hb i hi] at he
    omega

/-- A store inside one leaf leaves every other leaf alone. -/
theorem leafAt_store_other (m : Memory) (addr : Word) (f : Nat → Byte) (j off n i : Nat)
    (ha : addr.toNat = 32 * j + off) (hn : off + n ≤ 32) (hi : i ≠ j) :
    leafAt (m.store addr f n) i = leafAt m i := by
  have hlt := addr.isLt
  apply bytes32_ext
  intro k hk
  rw [byteOf_leafAt _ _ _ hk, byteOf_leafAt _ _ _ hk]
  refine read_store_other m addr f n _ (fun l hl he => ?_)
  simp only [byteAddress, BitVec.toNat_add, BitVec.toNat_ofNat] at he
  omega

end Sys2Proof.Machine
end

