-- ==== Sys2Proof/Laws/State.lean ====
section
/-! SUPPORT. One lemma per field per update, so that no proof unfolds a record update, and the laws of the register
file and of the three outcomes. -/

namespace Sys2Proof.Machine

/-! ### Outcomes -/

@[simp] theorem andThen_next {α β : Type} (a : α) (f : α → Result β) : andThen (.next a) f = f a := rfl
@[simp] theorem andThen_fault {α β : Type} (e : Fault) (f : α → Result β) : andThen (.fault e) f = .fault e := rfl
@[simp] theorem andThen_refused {α β : Type} (r : Refusal) (f : α → Result β) :
    andThen (.refused r) f = .refused r := rfl

/-- A sequence answers a next state only through one of its first part. -/
theorem andThen_eq_next {α β : Type} {x : Result α} {f : α → Result β} {b : β} :
    andThen x f = .next b ↔ ∃ a, x = .next a ∧ f a = .next b := by
  cases x <;> simp [andThen]

theorem andThen_assoc {α β γ : Type} (x : Result α) (f : α → Result β) (g : β → Result γ) :
    andThen (andThen x f) g = andThen x (fun a => andThen (f a) g) := by
  cases x <;> rfl

/-! ### Fields -/

@[simp] theorem setReg_root (s : State) (i : Reg) (v : Word) : (setReg s i v).root = s.root := rfl
@[simp] theorem setReg_memRoot (s : State) (i : Reg) (v : Word) : (setReg s i v).memRoot = s.memRoot := rfl
@[simp] theorem setReg_preimageKey (s : State) (i : Reg) (v : Word) : (setReg s i v).preimageKey = s.preimageKey := rfl
@[simp] theorem setReg_preimageOffset (s : State) (i : Reg) (v : Word) : (setReg s i v).preimageOffset = s.preimageOffset := rfl
@[simp] theorem setReg_pc (s : State) (i : Reg) (v : Word) : (setReg s i v).pc = s.pc := rfl
@[simp] theorem setReg_exitCode (s : State) (i : Reg) (v : Word) : (setReg s i v).exitCode = s.exitCode := rfl
@[simp] theorem setReg_exited (s : State) (i : Reg) (v : Word) : (setReg s i v).exited = s.exited := rfl
@[simp] theorem setReg_stepCounter (s : State) (i : Reg) (v : Word) : (setReg s i v).stepCounter = s.stepCounter := rfl
@[simp] theorem setReg_heap (s : State) (i : Reg) (v : Word) : (setReg s i v).heap = s.heap := rfl
@[simp] theorem setReg_loadReservation (s : State) (i : Reg) (v : Word) : (setReg s i v).loadReservation = s.loadReservation := rfl
@[simp] theorem setReg_regs (s : State) (i : Reg) (v : Word) : (setReg s i v).regs = writeReg s.regs i v := rfl
@[simp] theorem setReg_mem (s : State) (i : Reg) (v : Word) : (setReg s i v).mem = s.mem := rfl
@[simp] theorem setReg_inputs (s : State) (i : Reg) (v : Word) : (setReg s i v).inputs = s.inputs := rfl
@[simp] theorem setReg_oracleTable (s : State) (i : Reg) (v : Word) : (setReg s i v).oracleTable = s.oracleTable := rfl
@[simp] theorem setReg_stateHash (s : State) (i : Reg) (v : Word) : (setReg s i v).stateHash = s.stateHash := rfl

@[simp] theorem setPc_root (s : State) (t : Word) : (setPc s t).root = s.root := rfl
@[simp] theorem setPc_memRoot (s : State) (t : Word) : (setPc s t).memRoot = s.memRoot := rfl
@[simp] theorem setPc_preimageKey (s : State) (t : Word) : (setPc s t).preimageKey = s.preimageKey := rfl
@[simp] theorem setPc_preimageOffset (s : State) (t : Word) : (setPc s t).preimageOffset = s.preimageOffset := rfl
@[simp] theorem setPc_pc (s : State) (t : Word) : (setPc s t).pc = t := rfl
@[simp] theorem setPc_exitCode (s : State) (t : Word) : (setPc s t).exitCode = s.exitCode := rfl
@[simp] theorem setPc_exited (s : State) (t : Word) : (setPc s t).exited = s.exited := rfl
@[simp] theorem setPc_stepCounter (s : State) (t : Word) : (setPc s t).stepCounter = s.stepCounter := rfl
@[simp] theorem setPc_heap (s : State) (t : Word) : (setPc s t).heap = s.heap := rfl
@[simp] theorem setPc_loadReservation (s : State) (t : Word) : (setPc s t).loadReservation = s.loadReservation := rfl
@[simp] theorem setPc_regs (s : State) (t : Word) : (setPc s t).regs = s.regs := rfl
@[simp] theorem setPc_mem (s : State) (t : Word) : (setPc s t).mem = s.mem := rfl
@[simp] theorem setPc_inputs (s : State) (t : Word) : (setPc s t).inputs = s.inputs := rfl
@[simp] theorem setPc_oracleTable (s : State) (t : Word) : (setPc s t).oracleTable = s.oracleTable := rfl
@[simp] theorem setPc_stateHash (s : State) (t : Word) : (setPc s t).stateHash = s.stateHash := rfl

@[simp] theorem advance_root (s : State) : (advance s).root = s.root := rfl
@[simp] theorem advance_memRoot (s : State) : (advance s).memRoot = s.memRoot := rfl
@[simp] theorem advance_preimageKey (s : State) : (advance s).preimageKey = s.preimageKey := rfl
@[simp] theorem advance_preimageOffset (s : State) : (advance s).preimageOffset = s.preimageOffset := rfl
@[simp] theorem advance_pc (s : State) : (advance s).pc = s.pc + 4 := rfl
@[simp] theorem advance_exitCode (s : State) : (advance s).exitCode = s.exitCode := rfl
@[simp] theorem advance_exited (s : State) : (advance s).exited = s.exited := rfl
@[simp] theorem advance_stepCounter (s : State) : (advance s).stepCounter = s.stepCounter := rfl
@[simp] theorem advance_heap (s : State) : (advance s).heap = s.heap := rfl
@[simp] theorem advance_loadReservation (s : State) : (advance s).loadReservation = s.loadReservation := rfl
@[simp] theorem advance_regs (s : State) : (advance s).regs = s.regs := rfl
@[simp] theorem advance_mem (s : State) : (advance s).mem = s.mem := rfl
@[simp] theorem advance_inputs (s : State) : (advance s).inputs = s.inputs := rfl
@[simp] theorem advance_oracleTable (s : State) : (advance s).oracleTable = s.oracleTable := rfl
@[simp] theorem advance_stateHash (s : State) : (advance s).stateHash = s.stateHash := rfl

@[simp] theorem setReservation_root (s : State) (a : Word) : (setReservation s a).root = s.root := rfl
@[simp] theorem setReservation_memRoot (s : State) (a : Word) : (setReservation s a).memRoot = s.memRoot := rfl
@[simp] theorem setReservation_preimageKey (s : State) (a : Word) : (setReservation s a).preimageKey = s.preimageKey := rfl
@[simp] theorem setReservation_preimageOffset (s : State) (a : Word) : (setReservation s a).preimageOffset = s.preimageOffset := rfl
@[simp] theorem setReservation_pc (s : State) (a : Word) : (setReservation s a).pc = s.pc := rfl
@[simp] theorem setReservation_exitCode (s : State) (a : Word) : (setReservation s a).exitCode = s.exitCode := rfl
@[simp] theorem setReservation_exited (s : State) (a : Word) : (setReservation s a).exited = s.exited := rfl
@[simp] theorem setReservation_stepCounter (s : State) (a : Word) : (setReservation s a).stepCounter = s.stepCounter := rfl
@[simp] theorem setReservation_heap (s : State) (a : Word) : (setReservation s a).heap = s.heap := rfl
@[simp] theorem setReservation_loadReservation (s : State) (a : Word) : (setReservation s a).loadReservation = a := rfl
@[simp] theorem setReservation_regs (s : State) (a : Word) : (setReservation s a).regs = s.regs := rfl
@[simp] theorem setReservation_mem (s : State) (a : Word) : (setReservation s a).mem = s.mem := rfl
@[simp] theorem setReservation_inputs (s : State) (a : Word) : (setReservation s a).inputs = s.inputs := rfl
@[simp] theorem setReservation_oracleTable (s : State) (a : Word) : (setReservation s a).oracleTable = s.oracleTable := rfl
@[simp] theorem setReservation_stateHash (s : State) (a : Word) : (setReservation s a).stateHash = s.stateHash := rfl

@[simp] theorem commitMemory_root (s : State) (m : Memory) : (commitMemory s m).root = .ofMemory := rfl
@[simp] theorem commitMemory_memRoot (s : State) (m : Memory) : (commitMemory s m).memRoot = merkleRoot m := rfl
@[simp] theorem commitMemory_preimageKey (s : State) (m : Memory) : (commitMemory s m).preimageKey = s.preimageKey := rfl
@[simp] theorem commitMemory_preimageOffset (s : State) (m : Memory) : (commitMemory s m).preimageOffset = s.preimageOffset := rfl
@[simp] theorem commitMemory_pc (s : State) (m : Memory) : (commitMemory s m).pc = s.pc := rfl
@[simp] theorem commitMemory_exitCode (s : State) (m : Memory) : (commitMemory s m).exitCode = s.exitCode := rfl
@[simp] theorem commitMemory_exited (s : State) (m : Memory) : (commitMemory s m).exited = s.exited := rfl
@[simp] theorem commitMemory_stepCounter (s : State) (m : Memory) : (commitMemory s m).stepCounter = s.stepCounter := rfl
@[simp] theorem commitMemory_heap (s : State) (m : Memory) : (commitMemory s m).heap = s.heap := rfl
@[simp] theorem commitMemory_loadReservation (s : State) (m : Memory) : (commitMemory s m).loadReservation = s.loadReservation := rfl
@[simp] theorem commitMemory_regs (s : State) (m : Memory) : (commitMemory s m).regs = s.regs := rfl
@[simp] theorem commitMemory_mem (s : State) (m : Memory) : (commitMemory s m).mem = m := rfl
@[simp] theorem commitMemory_inputs (s : State) (m : Memory) : (commitMemory s m).inputs = s.inputs := rfl
@[simp] theorem commitMemory_oracleTable (s : State) (m : Memory) : (commitMemory s m).oracleTable = s.oracleTable := rfl
@[simp] theorem commitMemory_stateHash (s : State) (m : Memory) : (commitMemory s m).stateHash = s.stateHash := rfl

@[simp] theorem deliverOutput_root (s : State) : (deliverOutput s).root = s.root := rfl
@[simp] theorem deliverOutput_memRoot (s : State) : (deliverOutput s).memRoot = s.memRoot := rfl
@[simp] theorem deliverOutput_preimageKey (s : State) : (deliverOutput s).preimageKey = s.preimageKey := rfl
@[simp] theorem deliverOutput_preimageOffset (s : State) : (deliverOutput s).preimageOffset = s.preimageOffset := rfl
@[simp] theorem deliverOutput_pc (s : State) : (deliverOutput s).pc = s.pc := rfl
@[simp] theorem deliverOutput_exitCode (s : State) : (deliverOutput s).exitCode = s.exitCode := rfl
@[simp] theorem deliverOutput_exited (s : State) : (deliverOutput s).exited = s.exited := rfl
@[simp] theorem deliverOutput_stepCounter (s : State) : (deliverOutput s).stepCounter = s.stepCounter := rfl
@[simp] theorem deliverOutput_heap (s : State) : (deliverOutput s).heap = s.heap := rfl
@[simp] theorem deliverOutput_loadReservation (s : State) : (deliverOutput s).loadReservation = s.loadReservation := rfl
@[simp] theorem deliverOutput_regs (s : State) : (deliverOutput s).regs = s.regs := rfl
@[simp] theorem deliverOutput_mem (s : State) : (deliverOutput s).mem = s.mem := rfl
@[simp] theorem deliverOutput_inputs (s : State) : (deliverOutput s).inputs = s.inputs.tail := rfl
@[simp] theorem deliverOutput_oracleTable (s : State) : (deliverOutput s).oracleTable = s.oracleTable := rfl
@[simp] theorem deliverOutput_stateHash (s : State) : (deliverOutput s).stateHash = some s.toRecord.hash := rfl

/-! ### The record of a state -/

@[simp] theorem toRecord_memRoot (s : State) : s.toRecord.memRoot = s.memRoot := rfl
@[simp] theorem toRecord_preimageKey (s : State) : s.toRecord.preimageKey = s.preimageKey := rfl
@[simp] theorem toRecord_preimageOffset (s : State) : s.toRecord.preimageOffset = s.preimageOffset := rfl
@[simp] theorem toRecord_pc (s : State) : s.toRecord.pc = s.pc := rfl
@[simp] theorem toRecord_exitCode (s : State) : s.toRecord.exitCode = s.exitCode := rfl
@[simp] theorem toRecord_exited (s : State) : s.toRecord.exited = s.exited := rfl
@[simp] theorem toRecord_stepCounter (s : State) : s.toRecord.stepCounter = s.stepCounter := rfl
@[simp] theorem toRecord_heap (s : State) : s.toRecord.heap = s.heap := rfl
@[simp] theorem toRecord_loadReservation (s : State) : s.toRecord.loadReservation = s.loadReservation := rfl
@[simp] theorem toRecord_regs (s : State) : s.toRecord.regs = s.regs := rfl

@[simp] theorem withRecord_memRoot (s : State) (r : Record) : (s.withRecord r).memRoot = r.memRoot := rfl
@[simp] theorem withRecord_root (s : State) (r : Record) : (s.withRecord r).root = .digest r.memRoot := rfl
@[simp] theorem withRecord_preimageKey (s : State) (r : Record) : (s.withRecord r).preimageKey = r.preimageKey := rfl
@[simp] theorem withRecord_preimageOffset (s : State) (r : Record) : (s.withRecord r).preimageOffset = r.preimageOffset := rfl
@[simp] theorem withRecord_pc (s : State) (r : Record) : (s.withRecord r).pc = r.pc := rfl
@[simp] theorem withRecord_exitCode (s : State) (r : Record) : (s.withRecord r).exitCode = r.exitCode := rfl
@[simp] theorem withRecord_exited (s : State) (r : Record) : (s.withRecord r).exited = r.exited := rfl
@[simp] theorem withRecord_stepCounter (s : State) (r : Record) : (s.withRecord r).stepCounter = r.stepCounter := rfl
@[simp] theorem withRecord_heap (s : State) (r : Record) : (s.withRecord r).heap = r.heap := rfl
@[simp] theorem withRecord_loadReservation (s : State) (r : Record) : (s.withRecord r).loadReservation = r.loadReservation := rfl
@[simp] theorem withRecord_regs (s : State) (r : Record) : (s.withRecord r).regs = r.regs := rfl
@[simp] theorem withRecord_mem (s : State) (r : Record) : (s.withRecord r).mem = s.mem := rfl
@[simp] theorem withRecord_inputs (s : State) (r : Record) : (s.withRecord r).inputs = s.inputs := rfl
@[simp] theorem withRecord_oracleTable (s : State) (r : Record) : (s.withRecord r).oracleTable = s.oracleTable := rfl
@[simp] theorem withRecord_stateHash (s : State) (r : Record) : (s.withRecord r).stateHash = s.stateHash := rfl
@[simp] theorem toRecord_withRecord (s : State) (r : Record) : (s.withRecord r).toRecord = r := rfl

/-- The root of a state that keeps it as the root of `mem`. -/
theorem memRoot_ofMemory {s : State} (h : s.root = .ofMemory) : s.memRoot = merkleRoot s.mem := by
  rw [State.memRoot, h]

/-- The root of a state that keeps it as a digest. -/
theorem memRoot_digest {s : State} {b : Bytes32} (h : s.root = .digest b) : s.memRoot = b := by
  rw [State.memRoot, h]

/-- The root depends on `root` and `mem` only. -/
theorem memRoot_congr {s t : State} (hr : s.root = t.root) (hm : s.mem = t.mem) : s.memRoot = t.memRoot := by
  rw [State.memRoot, State.memRoot, hr, hm]

/-- An honest block verifies exactly when `memRoot` is the root of the host's memory (R64, R76(a)). -/
theorem honestRead_iff (s : State) : s.honestRead = true ↔ s.memRoot = merkleRoot s.mem := by
  rw [State.honestRead, State.memRoot]
  cases s.root with
  | ofMemory => exact iff_of_true rfl rfl
  | digest b => exact beq_iff_eq.trans eq_comm

/-! ### Registers -/

@[simp] theorem writeReg_zero (regs : Vector Word 32) (v : Word) : writeReg regs 0#5 v = regs := rfl

@[simp] theorem setReg_zero (s : State) (v : Word) : setReg s 0#5 v = s := rfl

@[simp] theorem getReg_zero (s : State) : getReg s 0#5 = 0 := rfl

/-- Reading depends on the register file only. -/
theorem getReg_congr {s t : State} (h : s.regs = t.regs) (i : Reg) : getReg s i = getReg t i := by
  simp only [getReg, h]

@[simp] theorem getReg_advance (s : State) (i : Reg) : getReg (advance s) i = getReg s i := rfl
@[simp] theorem getReg_setPc (s : State) (t : Word) (i : Reg) : getReg (setPc s t) i = getReg s i := rfl
@[simp] theorem getReg_setReservation (s : State) (a : Word) (i : Reg) :
    getReg (setReservation s a) i = getReg s i := rfl
@[simp] theorem getReg_commitMemory (s : State) (m : Memory) (i : Reg) : getReg (commitMemory s m) i = getReg s i := rfl

/-- A read after a write gives the value written, except that x0 stays 0. -/
theorem getReg_setReg_same (s : State) (i : Reg) (v : Word) : getReg (setReg s i v) i = if i = 0#5 then 0 else v := by
  by_cases h : i = 0#5 <;> simp [getReg, setReg, writeReg, h]

/-- A write leaves every other register alone. -/
theorem getReg_setReg_other (s : State) (i j : Reg) (v : Word) (h : j ≠ i) : getReg (setReg s i v) j = getReg s j := by
  by_cases hi : i = 0#5
  · simp [hi]
  · have hne : i.toNat ≠ j.toNat := fun he => h (BitVec.eq_of_toNat_eq he.symm)
    by_cases hj : j = 0#5
    · simp [getReg, hj]
    · simp [getReg, setReg, writeReg, hi, hj, hne]

/-- No write reaches the stored x0 slot. -/
theorem writeReg_slot_zero (regs : Vector Word 32) (i : Reg) (v : Word) : (writeReg regs i v)[0] = regs[0] := by
  by_cases h : i = 0#5
  · simp [h]
  · have hne : i.toNat ≠ 0 := fun he => h (BitVec.eq_of_toNat_eq he)
    simp [writeReg, h, hne]

end Sys2Proof.Machine
end

