-- ==== Sys2Proof/Laws/LoadStore.lean ====
section
/-! SUPPORT. What the load-store unit can do, said once: the arithmetic of leaves, the leaf primitives, and `loadMem` and
`storeMem` with an honest host as reads and writes of an ordinary byte-addressed little-endian memory (R76(c)). -/

namespace Sys2Proof.Machine

/-! ### Leaf arithmetic -/

theorem leafOffset_eq (addr : Word) : leafOffset addr = addr.toNat % 32 := by
  rw [leafOffset, BitVec.toNat_and]
  exact Nat.and_two_pow_sub_one_eq_mod _ 5

theorem leafOffset_lt (addr : Word) : leafOffset addr < 32 := by
  rw [leafOffset_eq]
  exact Nat.mod_lt _ (by decide)

theorem leafIndex_eq (addr : Word) : leafIndex addr = addr.toNat / 32 := by
  simp [leafIndex, Nat.shiftRight_eq_div_pow]

/-- Rounding down to a leaf clears the low five bits. -/
theorem leafBase_and_31 (addr : Word) : leafBase addr &&& 31#64 = 0#64 := by
  rw [leafBase, BitVec.and_assoc, show (~~~31#64 &&& 31#64 : Word) = 0#64 by decide, BitVec.and_zero]

theorem leafBase_add_offset (addr : Word) : leafBase addr + (addr &&& 31#64) = addr := by
  have h : leafBase addr &&& (addr &&& 31#64) = 0#64 := by
    rw [← BitVec.and_assoc, BitVec.and_comm (leafBase addr) addr, BitVec.and_assoc, leafBase_and_31, BitVec.and_zero]
  rw [BitVec.add_eq_or_of_and_eq_zero _ _ h, leafBase, ← BitVec.and_or_distrib_left,
    show (~~~31#64 ||| 31#64 : Word) = BitVec.allOnes 64 by decide, BitVec.and_allOnes]

theorem toNat_leafBase (addr : Word) : (leafBase addr).toNat = 32 * (addr.toNat / 32) := by
  have hsum : (leafBase addr).toNat + leafOffset addr = addr.toNat := by
    have h : leafBase addr &&& (addr &&& 31#64) = 0#64 := by
      rw [← BitVec.and_assoc, BitVec.and_comm (leafBase addr) addr, BitVec.and_assoc, leafBase_and_31, BitVec.and_zero]
    have hle : (leafBase addr).toNat ≤ addr.toNat := by
      rw [leafBase, BitVec.toNat_and]
      exact Nat.and_le_left
    have hoff := leafOffset_lt addr
    have he := congrArg BitVec.toNat (leafBase_add_offset addr)
    rw [BitVec.toNat_add] at he
    have hdef : (addr &&& 31#64).toNat = leafOffset addr := rfl
    rw [hdef] at he
    have hmod : (leafBase addr).toNat % 32 = 0 := by
      have hb := congrArg BitVec.toNat (leafBase_and_31 addr)
      rw [BitVec.toNat_and] at hb
      exact (Nat.and_two_pow_sub_one_eq_mod _ 5).symm.trans hb
    have := (leafBase addr).isLt
    omega
  rw [leafOffset_eq] at hsum
  omega

theorem leafIndex_leafBase (addr : Word) : leafIndex (leafBase addr) = addr.toNat / 32 := by
  rw [leafIndex_eq, toNat_leafBase]
  omega

theorem leafBase_add_leafOffset (addr : Word) : leafBase addr + BitVec.ofNat 64 (leafOffset addr) = addr := by
  rw [leafOffset, BitVec.ofNat_toNat, BitVec.setWidth_eq]
  exact leafBase_add_offset addr

theorem toNat_lastByte (addr : Word) (size : Nat) (h1 : 1 ≤ size) (h : size ≤ 32) :
    (lastByte addr size).toNat = (addr.toNat + (size - 1)) % 2 ^ 64 := by
  have hlt := addr.isLt
  have hone : (1 : Word).toNat = 1 := rfl
  simp only [lastByte, BitVec.toNat_sub, BitVec.toNat_add, BitVec.toNat_ofNat, hone]
  omega

/-- An access lies in one leaf exactly when it ends inside the leaf it begins in (R66). -/
theorem one_leaf_iff (addr : Word) (size : Nat) (h1 : 1 ≤ size) (h : size ≤ 32) :
    leafBase (lastByte addr size) = leafBase addr ↔ leafOffset addr + size ≤ 32 := by
  have hlt := addr.isLt
  have hl := toNat_lastByte addr size h1 h
  rw [leafOffset_eq]
  constructor
  · intro he
    have := congrArg BitVec.toNat he
    rw [toNat_leafBase, toNat_leafBase, hl] at this
    omega
  · intro he
    apply BitVec.eq_of_toNat_eq
    rw [toNat_leafBase, toNat_leafBase, hl]
    omega

/-- The right leaf of a crossing access follows the left one, modulo 2^64 (R70). -/
theorem right_leaf (addr : Word) (size : Nat) (h1 : 1 ≤ size) (h : size ≤ 32)
    (hc : leafBase (lastByte addr size) ≠ leafBase addr) :
    leafBase (lastByte addr size) = addr + BitVec.ofNat 64 (32 - leafOffset addr) := by
  have hlt := addr.isLt
  have hl := toNat_lastByte addr size h1 h
  rw [Ne, one_leaf_iff addr size h1 h, leafOffset_eq] at hc
  apply BitVec.eq_of_toNat_eq
  rw [toNat_leafBase, hl, BitVec.toNat_add, BitVec.toNat_ofNat, leafOffset_eq]
  omega

/-! ### Leaf primitives with no calldata prepared -/

/-- With no calldata prepared a leaf read gives the leaf of the host's memory where `memRoot` commits to that memory,
and reverts where it does not (R64, R76(a)). -/
theorem getMemoryB32_prepared_none (s : State) (addr : Word) (p : Nat) (h : s.inputs = []) (hp : p ≠ noProof) :
    getMemoryB32 s (leafBase addr) p =
      if s.memRoot = merkleRoot s.mem then .next (leafAt s.mem (addr.toNat / 32)) else .fault .badProof := by
  rw [getMemoryB32, if_neg (by rw [leafBase_and_31]; exact fun hn => hn rfl)]
  simp only [h, hp, leafIndex_leafBase, honestRead_iff, if_false, revert]

theorem getMemoryB32_honest (s : State) (addr : Word) (p : Nat) (h : s.inputs = [])
    (hc : s.memRoot = merkleRoot s.mem) (hp : p ≠ noProof) :
    getMemoryB32 s (leafBase addr) p = .next (leafAt s.mem (addr.toNat / 32)) := by
  rw [getMemoryB32_prepared_none s addr p h hp, if_pos hc]

theorem setMemoryB32_honest (s : State) (addr : Word) (leaf : Bytes32) (p : Nat) (m : Memory) (h : s.inputs = [])
    (hp : p ≠ noProof) : setMemoryB32 s (leafBase addr) leaf p m = .next (commitMemory s m) := by
  simp [setMemoryB32, leafBase_and_31, h, hp]

theorem patchMemory_honest (s : State) (addr : Word) (off n : Nat) (f : Nat → Byte) (p : Nat) (h : s.inputs = [])
    (hc : s.memRoot = merkleRoot s.mem) (hp : p ≠ noProof) :
    patchMemory s (leafBase addr) off n f p =
      .next (commitMemory s (s.mem.store (leafBase addr + BitVec.ofNat 64 off) f n)) := by
  simp only [patchMemory, getMemoryB32_honest s addr p h hc hp, andThen_next, setMemoryB32_honest s addr _ p _ h hp]

/-! ### Byte-granular access with an honest host -/

/-- The bytes `loadMem` picks from one or two leaves are the memory's bytes at `addr` upwards. -/
theorem catByte_leaves (m : Memory) (addr : Word) (j : Nat) (hj : j < 32) (right : Bytes32)
    (hr : leafOffset addr + j ≥ 32 →
      right = leafAt m ((addr + BitVec.ofNat 64 (32 - leafOffset addr)).toNat / 32)) :
    catByte (leafAt m (addr.toNat / 32)) right (leafOffset addr + j) = m.read (byteAddress addr j) := by
  have hlt := addr.isLt
  have hoff := leafOffset_eq addr
  have haddr : byteAddress addr j = (addr.toNat + j) % 2 ^ 64 := by
    simp only [byteAddress, BitVec.toNat_add, BitVec.toNat_ofNat]
    omega
  rw [catByte]
  split
  · rw [byteOf_leafAt _ _ _ (by omega), haddr]
    congr 1
    omega
  · rw [hr (by omega), byteOf_leafAt _ _ _ (by omega), haddr, BitVec.toNat_add, BitVec.toNat_ofNat]
    congr 1
    omega

/-- `loadMem` with an honest host is an ordinary little-endian read (R76(c)). -/
theorem loadMem_honest (s : State) (addr : Word) (size : Nat) (signed : Bool) (pL pR : Nat) (h : s.inputs = [])
    (hc : s.memRoot = merkleRoot s.mem) (h1 : 1 ≤ size) (hs : size ≤ 32) (hL : pL ≠ noProof) (hR : pR ≠ noProof ∨ leafOffset addr + size ≤ 32) :
    loadMem s addr size signed pL pR =
      .next (if signed then sext (8 * size) (s.mem.load addr size) else s.mem.load addr size) := by
  rw [loadMem, getMemoryB32_honest s addr pL h hc hL, andThen_next]
  by_cases hone : leafBase (lastByte addr size) = leafBase addr
  · have hin := (one_leaf_iff addr size h1 hs).mp hone
    rw [if_pos hone, loadedValue]
    have hv : leValue size (fun j => catByte (leafAt s.mem (addr.toNat / 32)) (leafAt s.mem (addr.toNat / 32))
        (leafOffset addr + j)) = leValue size (fun j => s.mem.read (byteAddress addr j)) :=
      leValue_congr _ _ _ (fun j hj => catByte_leaves s.mem addr j (by omega) _ (by omega))
    simp only [hv, Memory.load]
  · have hcross := hone
    rw [one_leaf_iff addr size h1 hs] at hcross
    rw [if_neg hone, getMemoryB32_honest s _ pR h hc (hR.resolve_right hcross), andThen_next, loadedValue]
    have hr := right_leaf addr size h1 hs hone
    have hq : (lastByte addr size).toNat / 32 = (addr + BitVec.ofNat 64 (32 - leafOffset addr)).toNat / 32 := by
      have := congrArg BitVec.toNat hr
      rw [toNat_leafBase] at this
      omega
    have hv : leValue size (fun j => catByte (leafAt s.mem (addr.toNat / 32))
        (leafAt s.mem ((lastByte addr size).toNat / 32)) (leafOffset addr + j)) =
        leValue size (fun j => s.mem.read (byteAddress addr j)) :=
      leValue_congr _ _ _ (fun j hj => catByte_leaves s.mem addr j (by omega) _ (fun _ => by rw [hq]))
    simp only [hv, Memory.load]

theorem commitMemory_commitMemory (s : State) (m m' : Memory) :
    commitMemory (commitMemory s m) m' = commitMemory s m' := rfl

/-- `storeMem` with an honest host is an ordinary little-endian write, with the new root (R76(c)). -/
theorem storeMem_honest (s : State) (addr : Word) (size value pL pR : Nat) (h : s.inputs = [])
    (hc : s.memRoot = merkleRoot s.mem) (h1 : 1 ≤ size) (hs : size ≤ 32) (hL : pL ≠ noProof) (hR : pR ≠ noProof) :
    storeMem s addr size value pL pR = .next (commitMemory s (s.mem.store addr (valueByte value) size)) := by
  have hoff := leafOffset_lt addr
  simp only [storeMem, patchMemory_honest s addr _ _ _ pL h hc hL, leafBase_add_leafOffset, andThen_next]
  by_cases hone : leafBase (lastByte addr size) = leafBase addr
  · have hin := (one_leaf_iff addr size h1 hs).mp hone
    rw [if_pos hone, Nat.min_eq_left (by omega)]
  · have hcross := hone
    rw [one_leaf_iff addr size h1 hs] at hcross
    have hr := right_leaf addr size h1 hs hone
    rw [if_neg hone, Nat.min_eq_right (by omega), patchMemory_honest _ _ _ _ _ pR (by simpa using h)
        (commitMemory_memRoot s _) hR,
      commitMemory_commitMemory, commitMemory_mem, hr, BitVec.add_zero, store_append,
      show 32 - leafOffset addr + (size - (32 - leafOffset addr)) = size by omega]

/-! ### Whatever the host supplies -/

/-- A leaf write that completes changes the host's memory and the root, and nothing else. -/
theorem setMemoryB32_next {s s' : State} {addr : Word} {leaf : Bytes32} {p : Nat} {m : Memory}
    (h : setMemoryB32 s addr leaf p m = .next s') : s' = { s with mem := m, root := s'.root } := by
  unfold setMemoryB32 at h
  split at h
  · simp [revert] at h
  · split at h
    · split at h
      · simp at h
      · simp only [Host.Outcome.next.injEq] at h
        subst h
        rfl
    · obtain ⟨block, -, hb⟩ := andThen_eq_next.mp h
      simp only [Host.Outcome.next.injEq] at hb
      subst hb
      rfl

theorem patchMemory_next {s s' : State} {addr : Word} {off n : Nat} {f : Nat → Byte} {p : Nat}
    (h : patchMemory s addr off n f p = .next s') :
    s' = { s with mem := s.mem.store (addr + BitVec.ofNat 64 off) f n, root := s'.root } := by
  obtain ⟨leaf, -, hl⟩ := andThen_eq_next.mp h
  exact setMemoryB32_next hl

/-- A store that completes has stored its bytes, and changed nothing beside the memory and its root. -/
theorem storeMem_next {s s' : State} {addr : Word} {size value pL pR : Nat} (h1 : 1 ≤ size) (hs : size ≤ 32)
    (h : storeMem s addr size value pL pR = .next s') :
    s' = { s with mem := s.mem.store addr (valueByte value) size, root := s'.root } := by
  have hoff := leafOffset_lt addr
  obtain ⟨t, ht, hrest⟩ := andThen_eq_next.mp h
  have ht := patchMemory_next ht
  rw [leafBase_add_leafOffset] at ht
  by_cases hone : leafBase (lastByte addr size) = leafBase addr
  · have hin := (one_leaf_iff addr size h1 hs).mp hone
    simp only [hone, if_true, Host.Outcome.next.injEq] at hrest
    rw [Nat.min_eq_left (by omega)] at ht
    rw [← hrest]
    exact ht
  · have hcross := hone
    rw [one_leaf_iff addr size h1 hs] at hcross
    simp only [hone, if_false] at hrest
    have hr := patchMemory_next hrest
    rw [right_leaf addr size h1 hs hone, BitVec.add_zero, Nat.min_eq_right (by omega)] at hr
    rw [Nat.min_eq_right (by omega)] at ht
    rw [hr, ht, store_append, show 32 - leafOffset addr + (size - (32 - leafOffset addr)) = size by omega]

end Sys2Proof.Machine
end

