-- ==== Sys2Proof/Laws/PerInstr.lean ====
section
/-! SUPPORT. Statements made for every instruction, one lemma per constructor. The family `OpcodeOf`: the word of an
instruction carries, in bits 6 to 0, the opcode under which 30_encoding.md R108 dispatches it. -/

namespace Sys2Proof

/-- The opcode of the row of an instruction (R108); a term of the default row has the one of its word. -/
def Instr.opcode : Instr → BitVec 7
  | .lb _ _ _ => 0x03
  | .lh _ _ _ => 0x03
  | .lw _ _ _ => 0x03
  | .ld _ _ _ => 0x03
  | .lbu _ _ _ => 0x03
  | .lhu _ _ _ => 0x03
  | .lwu _ _ _ => 0x03
  | .sb _ _ _ => 0x23
  | .sh _ _ _ => 0x23
  | .sw _ _ _ => 0x23
  | .sd _ _ _ => 0x23
  | .beq _ _ _ => 0x63
  | .bne _ _ _ => 0x63
  | .blt _ _ _ => 0x63
  | .bge _ _ _ => 0x63
  | .bltu _ _ _ => 0x63
  | .bgeu _ _ _ => 0x63
  | .addi _ _ _ => 0x13
  | .slti _ _ _ => 0x13
  | .sltiu _ _ _ => 0x13
  | .xori _ _ _ => 0x13
  | .ori _ _ _ => 0x13
  | .andi _ _ _ => 0x13
  | .slli _ _ _ => 0x13
  | .srli _ _ _ => 0x13
  | .srai _ _ _ => 0x13
  | .addiw _ _ _ => 0x1B
  | .slliw _ _ _ => 0x1B
  | .srliw _ _ _ => 0x1B
  | .sraiw _ _ _ => 0x1B
  | .add _ _ _ => 0x33
  | .sub _ _ _ => 0x33
  | .sll _ _ _ => 0x33
  | .slt _ _ _ => 0x33
  | .sltu _ _ _ => 0x33
  | .xor _ _ _ => 0x33
  | .srl _ _ _ => 0x33
  | .sra _ _ _ => 0x33
  | .or _ _ _ => 0x33
  | .and _ _ _ => 0x33
  | .mul _ _ _ => 0x33
  | .mulh _ _ _ => 0x33
  | .mulhsu _ _ _ => 0x33
  | .mulhu _ _ _ => 0x33
  | .div _ _ _ => 0x33
  | .divu _ _ _ => 0x33
  | .rem _ _ _ => 0x33
  | .remu _ _ _ => 0x33
  | .addw _ _ _ => 0x3B
  | .subw _ _ _ => 0x3B
  | .sllw _ _ _ => 0x3B
  | .srlw _ _ _ => 0x3B
  | .sraw _ _ _ => 0x3B
  | .mulw _ _ _ => 0x3B
  | .divw _ _ _ => 0x3B
  | .divuw _ _ _ => 0x3B
  | .remw _ _ _ => 0x3B
  | .remuw _ _ _ => 0x3B
  | .lui _ _ => 0x37
  | .auipc _ _ => 0x17
  | .jal _ _ => 0x6F
  | .jalr _ _ _ _ => 0x67
  | .ecall _ _ => 0x73
  | .ebreak _ _ => 0x73
  | .csrrw _ _ _ => 0x73
  | .csrrs _ _ _ => 0x73
  | .csrrc _ _ _ => 0x73
  | .csrrwi _ _ _ => 0x73
  | .csrrsi _ _ _ => 0x73
  | .csrrci _ _ _ => 0x73
  | .lrW _ _ _ _ _ => 0x2F
  | .lrD _ _ _ _ _ => 0x2F
  | .scW _ _ _ _ _ => 0x2F
  | .scD _ _ _ _ _ => 0x2F
  | .amoswapW _ _ _ _ _ => 0x2F
  | .amoaddW _ _ _ _ _ => 0x2F
  | .amoxorW _ _ _ _ _ => 0x2F
  | .amoandW _ _ _ _ _ => 0x2F
  | .amoorW _ _ _ _ _ => 0x2F
  | .amominW _ _ _ _ _ => 0x2F
  | .amomaxW _ _ _ _ _ => 0x2F
  | .amominuW _ _ _ _ _ => 0x2F
  | .amomaxuW _ _ _ _ _ => 0x2F
  | .amoswapD _ _ _ _ _ => 0x2F
  | .amoaddD _ _ _ _ _ => 0x2F
  | .amoxorD _ _ _ _ _ => 0x2F
  | .amoandD _ _ _ _ _ => 0x2F
  | .amoorD _ _ _ _ _ => 0x2F
  | .amominD _ _ _ _ _ => 0x2F
  | .amomaxD _ _ _ _ _ => 0x2F
  | .amominuD _ _ _ _ _ => 0x2F
  | .amomaxuD _ _ _ _ _ => 0x2F
  | .fence _ _ _ => 0x0F
  | .fenceI _ _ _ => 0x0F
  | .fpLoad _ => 0x07
  | .fpStore _ => 0x27
  | .fpOp _ => 0x53
  | .rsvLoad7 _ _ _ => 0x03
  | .rsvStore _ _ _ _ => 0x23
  | .rsvBranch _ _ _ _ => 0x63
  | .rsvOpImm _ _ _ _ _ => 0x13
  | .rsvOpImm32 _ _ _ _ _ => 0x1B
  | .rsvOp _ _ _ _ _ => 0x33
  | .rsvOp32 _ _ _ _ _ => 0x3B
  | .rsvSystem0 _ _ _ => 0x73
  | .rsvSystem4 _ _ _ => 0x73
  | .rsvAmoSize _ _ _ _ _ _ _ => 0x2F
  | .rsvAmoWidth _ _ _ _ _ _ _ => 0x2F
  | .rsvAmoOp _ _ _ _ _ _ _ => 0x2F
  | .rsvMiscmem _ _ _ _ => 0x0F
  | .rsvUnknown word => opcodeOf word

/-- The word of `i` carries the opcode of `i`. -/
def Laws.OpcodeOf.Statement (i : Instr) : Prop := opcodeOf (encode i) = i.opcode

namespace Laws.OpcodeOf

theorem lb (rd rs1 : Reg) (imm : BitVec 12) : Statement (.lb rd rs1 imm) := opcodeOf_iType ..
theorem lh (rd rs1 : Reg) (imm : BitVec 12) : Statement (.lh rd rs1 imm) := opcodeOf_iType ..
theorem lw (rd rs1 : Reg) (imm : BitVec 12) : Statement (.lw rd rs1 imm) := opcodeOf_iType ..
theorem ld (rd rs1 : Reg) (imm : BitVec 12) : Statement (.ld rd rs1 imm) := opcodeOf_iType ..
theorem lbu (rd rs1 : Reg) (imm : BitVec 12) : Statement (.lbu rd rs1 imm) := opcodeOf_iType ..
theorem lhu (rd rs1 : Reg) (imm : BitVec 12) : Statement (.lhu rd rs1 imm) := opcodeOf_iType ..
theorem lwu (rd rs1 : Reg) (imm : BitVec 12) : Statement (.lwu rd rs1 imm) := opcodeOf_iType ..
theorem sb (rs1 rs2 : Reg) (imm : BitVec 12) : Statement (.sb rs1 rs2 imm) := opcodeOf_sType ..
theorem sh (rs1 rs2 : Reg) (imm : BitVec 12) : Statement (.sh rs1 rs2 imm) := opcodeOf_sType ..
theorem sw (rs1 rs2 : Reg) (imm : BitVec 12) : Statement (.sw rs1 rs2 imm) := opcodeOf_sType ..
theorem sd (rs1 rs2 : Reg) (imm : BitVec 12) : Statement (.sd rs1 rs2 imm) := opcodeOf_sType ..
theorem beq (rs1 rs2 : Reg) (imm : BitVec 13) : Statement (.beq rs1 rs2 imm) := opcodeOf_bType ..
theorem bne (rs1 rs2 : Reg) (imm : BitVec 13) : Statement (.bne rs1 rs2 imm) := opcodeOf_bType ..
theorem blt (rs1 rs2 : Reg) (imm : BitVec 13) : Statement (.blt rs1 rs2 imm) := opcodeOf_bType ..
theorem bge (rs1 rs2 : Reg) (imm : BitVec 13) : Statement (.bge rs1 rs2 imm) := opcodeOf_bType ..
theorem bltu (rs1 rs2 : Reg) (imm : BitVec 13) : Statement (.bltu rs1 rs2 imm) := opcodeOf_bType ..
theorem bgeu (rs1 rs2 : Reg) (imm : BitVec 13) : Statement (.bgeu rs1 rs2 imm) := opcodeOf_bType ..
theorem addi (rd rs1 : Reg) (imm : BitVec 12) : Statement (.addi rd rs1 imm) := opcodeOf_iType ..
theorem slti (rd rs1 : Reg) (imm : BitVec 12) : Statement (.slti rd rs1 imm) := opcodeOf_iType ..
theorem sltiu (rd rs1 : Reg) (imm : BitVec 12) : Statement (.sltiu rd rs1 imm) := opcodeOf_iType ..
theorem xori (rd rs1 : Reg) (imm : BitVec 12) : Statement (.xori rd rs1 imm) := opcodeOf_iType ..
theorem ori (rd rs1 : Reg) (imm : BitVec 12) : Statement (.ori rd rs1 imm) := opcodeOf_iType ..
theorem andi (rd rs1 : Reg) (imm : BitVec 12) : Statement (.andi rd rs1 imm) := opcodeOf_iType ..
theorem slli (rd rs1 : Reg) (shamt : BitVec 6) : Statement (.slli rd rs1 shamt) := opcodeOf_shift6Type ..
theorem srli (rd rs1 : Reg) (shamt : BitVec 6) : Statement (.srli rd rs1 shamt) := opcodeOf_shift6Type ..
theorem srai (rd rs1 : Reg) (shamt : BitVec 6) : Statement (.srai rd rs1 shamt) := opcodeOf_shift6Type ..
theorem addiw (rd rs1 : Reg) (imm : BitVec 12) : Statement (.addiw rd rs1 imm) := opcodeOf_iType ..
theorem slliw (rd rs1 : Reg) (shamt : BitVec 5) : Statement (.slliw rd rs1 shamt) := opcodeOf_rType ..
theorem srliw (rd rs1 : Reg) (shamt : BitVec 5) : Statement (.srliw rd rs1 shamt) := opcodeOf_rType ..
theorem sraiw (rd rs1 : Reg) (shamt : BitVec 5) : Statement (.sraiw rd rs1 shamt) := opcodeOf_rType ..
theorem add (rd rs1 rs2 : Reg) : Statement (.add rd rs1 rs2) := opcodeOf_rType ..
theorem sub (rd rs1 rs2 : Reg) : Statement (.sub rd rs1 rs2) := opcodeOf_rType ..
theorem sll (rd rs1 rs2 : Reg) : Statement (.sll rd rs1 rs2) := opcodeOf_rType ..
theorem slt (rd rs1 rs2 : Reg) : Statement (.slt rd rs1 rs2) := opcodeOf_rType ..
theorem sltu (rd rs1 rs2 : Reg) : Statement (.sltu rd rs1 rs2) := opcodeOf_rType ..
theorem xor (rd rs1 rs2 : Reg) : Statement (.xor rd rs1 rs2) := opcodeOf_rType ..
theorem srl (rd rs1 rs2 : Reg) : Statement (.srl rd rs1 rs2) := opcodeOf_rType ..
theorem sra (rd rs1 rs2 : Reg) : Statement (.sra rd rs1 rs2) := opcodeOf_rType ..
theorem or (rd rs1 rs2 : Reg) : Statement (.or rd rs1 rs2) := opcodeOf_rType ..
theorem and (rd rs1 rs2 : Reg) : Statement (.and rd rs1 rs2) := opcodeOf_rType ..
theorem mul (rd rs1 rs2 : Reg) : Statement (.mul rd rs1 rs2) := opcodeOf_rType ..
theorem mulh (rd rs1 rs2 : Reg) : Statement (.mulh rd rs1 rs2) := opcodeOf_rType ..
theorem mulhsu (rd rs1 rs2 : Reg) : Statement (.mulhsu rd rs1 rs2) := opcodeOf_rType ..
theorem mulhu (rd rs1 rs2 : Reg) : Statement (.mulhu rd rs1 rs2) := opcodeOf_rType ..
theorem div (rd rs1 rs2 : Reg) : Statement (.div rd rs1 rs2) := opcodeOf_rType ..
theorem divu (rd rs1 rs2 : Reg) : Statement (.divu rd rs1 rs2) := opcodeOf_rType ..
theorem rem (rd rs1 rs2 : Reg) : Statement (.rem rd rs1 rs2) := opcodeOf_rType ..
theorem remu (rd rs1 rs2 : Reg) : Statement (.remu rd rs1 rs2) := opcodeOf_rType ..
theorem addw (rd rs1 rs2 : Reg) : Statement (.addw rd rs1 rs2) := opcodeOf_rType ..
theorem subw (rd rs1 rs2 : Reg) : Statement (.subw rd rs1 rs2) := opcodeOf_rType ..
theorem sllw (rd rs1 rs2 : Reg) : Statement (.sllw rd rs1 rs2) := opcodeOf_rType ..
theorem srlw (rd rs1 rs2 : Reg) : Statement (.srlw rd rs1 rs2) := opcodeOf_rType ..
theorem sraw (rd rs1 rs2 : Reg) : Statement (.sraw rd rs1 rs2) := opcodeOf_rType ..
theorem mulw (rd rs1 rs2 : Reg) : Statement (.mulw rd rs1 rs2) := opcodeOf_rType ..
theorem divw (rd rs1 rs2 : Reg) : Statement (.divw rd rs1 rs2) := opcodeOf_rType ..
theorem divuw (rd rs1 rs2 : Reg) : Statement (.divuw rd rs1 rs2) := opcodeOf_rType ..
theorem remw (rd rs1 rs2 : Reg) : Statement (.remw rd rs1 rs2) := opcodeOf_rType ..
theorem remuw (rd rs1 rs2 : Reg) : Statement (.remuw rd rs1 rs2) := opcodeOf_rType ..
theorem lui (rd : Reg) (imm : BitVec 20) : Statement (.lui rd imm) := opcodeOf_uType ..
theorem auipc (rd : Reg) (imm : BitVec 20) : Statement (.auipc rd imm) := opcodeOf_uType ..
theorem jal (rd : Reg) (imm : BitVec 21) : Statement (.jal rd imm) := opcodeOf_jType ..
theorem jalr (f3 : BitVec 3) (rd rs1 : Reg) (imm : BitVec 12) : Statement (.jalr f3 rd rs1 imm) := opcodeOf_iType ..
theorem ecall (rd rs1 : Reg) : Statement (.ecall rd rs1) := opcodeOf_iType ..
theorem ebreak (rd rs1 : Reg) : Statement (.ebreak rd rs1) := opcodeOf_iType ..
theorem csrrw (rd rs1 : Reg) (csr : BitVec 12) : Statement (.csrrw rd rs1 csr) := opcodeOf_iType ..
theorem csrrs (rd rs1 : Reg) (csr : BitVec 12) : Statement (.csrrs rd rs1 csr) := opcodeOf_iType ..
theorem csrrc (rd rs1 : Reg) (csr : BitVec 12) : Statement (.csrrc rd rs1 csr) := opcodeOf_iType ..
theorem csrrwi (rd : Reg) (uimm : BitVec 5) (csr : BitVec 12) : Statement (.csrrwi rd uimm csr) := opcodeOf_iType ..
theorem csrrsi (rd : Reg) (uimm : BitVec 5) (csr : BitVec 12) : Statement (.csrrsi rd uimm csr) := opcodeOf_iType ..
theorem csrrci (rd : Reg) (uimm : BitVec 5) (csr : BitVec 12) : Statement (.csrrci rd uimm csr) := opcodeOf_iType ..
theorem lrW (rd rs1 rs2 : Reg) (aq rl : BitVec 1) : Statement (.lrW rd rs1 rs2 aq rl) := opcodeOf_amoType ..
theorem lrD (rd rs1 rs2 : Reg) (aq rl : BitVec 1) : Statement (.lrD rd rs1 rs2 aq rl) := opcodeOf_amoType ..
theorem scW (rd rs1 rs2 : Reg) (aq rl : BitVec 1) : Statement (.scW rd rs1 rs2 aq rl) := opcodeOf_amoType ..
theorem scD (rd rs1 rs2 : Reg) (aq rl : BitVec 1) : Statement (.scD rd rs1 rs2 aq rl) := opcodeOf_amoType ..
theorem amoswapW (rd rs1 rs2 : Reg) (aq rl : BitVec 1) : Statement (.amoswapW rd rs1 rs2 aq rl) := opcodeOf_amoType ..
theorem amoaddW (rd rs1 rs2 : Reg) (aq rl : BitVec 1) : Statement (.amoaddW rd rs1 rs2 aq rl) := opcodeOf_amoType ..
theorem amoxorW (rd rs1 rs2 : Reg) (aq rl : BitVec 1) : Statement (.amoxorW rd rs1 rs2 aq rl) := opcodeOf_amoType ..
theorem amoandW (rd rs1 rs2 : Reg) (aq rl : BitVec 1) : Statement (.amoandW rd rs1 rs2 aq rl) := opcodeOf_amoType ..
theorem amoorW (rd rs1 rs2 : Reg) (aq rl : BitVec 1) : Statement (.amoorW rd rs1 rs2 aq rl) := opcodeOf_amoType ..
theorem amominW (rd rs1 rs2 : Reg) (aq rl : BitVec 1) : Statement (.amominW rd rs1 rs2 aq rl) := opcodeOf_amoType ..
theorem amomaxW (rd rs1 rs2 : Reg) (aq rl : BitVec 1) : Statement (.amomaxW rd rs1 rs2 aq rl) := opcodeOf_amoType ..
theorem amominuW (rd rs1 rs2 : Reg) (aq rl : BitVec 1) : Statement (.amominuW rd rs1 rs2 aq rl) := opcodeOf_amoType ..
theorem amomaxuW (rd rs1 rs2 : Reg) (aq rl : BitVec 1) : Statement (.amomaxuW rd rs1 rs2 aq rl) := opcodeOf_amoType ..
theorem amoswapD (rd rs1 rs2 : Reg) (aq rl : BitVec 1) : Statement (.amoswapD rd rs1 rs2 aq rl) := opcodeOf_amoType ..
theorem amoaddD (rd rs1 rs2 : Reg) (aq rl : BitVec 1) : Statement (.amoaddD rd rs1 rs2 aq rl) := opcodeOf_amoType ..
theorem amoxorD (rd rs1 rs2 : Reg) (aq rl : BitVec 1) : Statement (.amoxorD rd rs1 rs2 aq rl) := opcodeOf_amoType ..
theorem amoandD (rd rs1 rs2 : Reg) (aq rl : BitVec 1) : Statement (.amoandD rd rs1 rs2 aq rl) := opcodeOf_amoType ..
theorem amoorD (rd rs1 rs2 : Reg) (aq rl : BitVec 1) : Statement (.amoorD rd rs1 rs2 aq rl) := opcodeOf_amoType ..
theorem amominD (rd rs1 rs2 : Reg) (aq rl : BitVec 1) : Statement (.amominD rd rs1 rs2 aq rl) := opcodeOf_amoType ..
theorem amomaxD (rd rs1 rs2 : Reg) (aq rl : BitVec 1) : Statement (.amomaxD rd rs1 rs2 aq rl) := opcodeOf_amoType ..
theorem amominuD (rd rs1 rs2 : Reg) (aq rl : BitVec 1) : Statement (.amominuD rd rs1 rs2 aq rl) := opcodeOf_amoType ..
theorem amomaxuD (rd rs1 rs2 : Reg) (aq rl : BitVec 1) : Statement (.amomaxuD rd rs1 rs2 aq rl) := opcodeOf_amoType ..
theorem fence (rd rs1 : Reg) (imm : BitVec 12) : Statement (.fence rd rs1 imm) := opcodeOf_iType ..
theorem fenceI (rd rs1 : Reg) (imm : BitVec 12) : Statement (.fenceI rd rs1 imm) := opcodeOf_iType ..
theorem fpLoad (rest : BitVec 25) : Statement (.fpLoad rest) := opcodeOf_anyType ..
theorem fpStore (rest : BitVec 25) : Statement (.fpStore rest) := opcodeOf_anyType ..
theorem fpOp (rest : BitVec 25) : Statement (.fpOp rest) := opcodeOf_anyType ..
theorem rsvLoad7 (rd rs1 : Reg) (imm : BitVec 12) : Statement (.rsvLoad7 rd rs1 imm) := opcodeOf_iType ..
theorem rsvStore (f3 : BitVec 3) (rs1 rs2 : Reg) (imm : BitVec 12) : Statement (.rsvStore f3 rs1 rs2 imm) := opcodeOf_sType ..
theorem rsvBranch (f3 : BitVec 3) (rs1 rs2 : Reg) (imm : BitVec 13) : Statement (.rsvBranch f3 rs1 rs2 imm) := opcodeOf_bType ..
theorem rsvOpImm (f6 : BitVec 6) (f3 : BitVec 3) (rd rs1 : Reg) (shamt : BitVec 6) : Statement (.rsvOpImm f6 f3 rd rs1 shamt) := opcodeOf_shift6Type ..
theorem rsvOpImm32 (f7 : BitVec 7) (f3 : BitVec 3) (rd rs1 : Reg) (shamt : BitVec 5) : Statement (.rsvOpImm32 f7 f3 rd rs1 shamt) := opcodeOf_rType ..
theorem rsvOp (f7 : BitVec 7) (f3 : BitVec 3) (rd rs1 rs2 : Reg) : Statement (.rsvOp f7 f3 rd rs1 rs2) := opcodeOf_rType ..
theorem rsvOp32 (f7 : BitVec 7) (f3 : BitVec 3) (rd rs1 rs2 : Reg) : Statement (.rsvOp32 f7 f3 rd rs1 rs2) := opcodeOf_rType ..
theorem rsvSystem0 (rd rs1 : Reg) (imm : BitVec 12) : Statement (.rsvSystem0 rd rs1 imm) := opcodeOf_iType ..
theorem rsvSystem4 (rd rs1 : Reg) (imm : BitVec 12) : Statement (.rsvSystem4 rd rs1 imm) := opcodeOf_iType ..
theorem rsvAmoSize (op : BitVec 5) (f3 : BitVec 3) (rd rs1 rs2 : Reg) (aq rl : BitVec 1) : Statement (.rsvAmoSize op f3 rd rs1 rs2 aq rl) := opcodeOf_amoType ..
theorem rsvAmoWidth (op : BitVec 5) (f3 : BitVec 3) (rd rs1 rs2 : Reg) (aq rl : BitVec 1) : Statement (.rsvAmoWidth op f3 rd rs1 rs2 aq rl) := opcodeOf_amoType ..
theorem rsvAmoOp (op : BitVec 5) (f3 : BitVec 3) (rd rs1 rs2 : Reg) (aq rl : BitVec 1) : Statement (.rsvAmoOp op f3 rd rs1 rs2 aq rl) := opcodeOf_amoType ..
theorem rsvMiscmem (f3 : BitVec 3) (rd rs1 : Reg) (imm : BitVec 12) : Statement (.rsvMiscmem f3 rd rs1 imm) := opcodeOf_iType ..
theorem rsvUnknown (word : BitVec 32) : Statement (.rsvUnknown word) := rfl

end Laws.OpcodeOf

end Sys2Proof
end

