-- ==== Sys2Proof/Laws/Step.lean ====
section
/-! SUPPORT. What a step can do, said once: how it can end in a next state, what the fetch can answer, and that a proof block
written out as bytes is read back from calldata. -/

namespace Sys2Proof.Machine

/-- The state hash is the Keccak-256 of the record's bytes (R44). -/
theorem record_hash_eq (r : Record) : r.hash = keccak256 r.toBytes := by
  unfold Record.hash
  rfl

/-- A step that answers a next state has taken its input in, and was the short-circuit of an exited record (R42) or
fetched, decoded and executed one instruction (R41); then the output went out. -/
theorem step_next_cases {s s' : State} (h : step s = .next s') :
    ∃ s1, deliverInput s = .next s1 ∧
      ((s1.exited = 1 ∧ s' = deliverOutput s1) ∨
        (s1.exited = 0 ∧ s1.regs[0] = 0 ∧ ∃ w s2, fetch s1 = .next w ∧ exec (decode w) s1 = .next s2 ∧
          s' = deliverOutput s2)) := by
  unfold step at h
  obtain ⟨s1, h1, h⟩ := andThen_eq_next.mp h
  refine ⟨s1, h1, ?_⟩
  split at h
  · rename_i he
    injection h with h
    exact .inl ⟨he, h.symm⟩
  · split at h
    · simp at h
    · rename_i hu
      simp only [recordUsable, Bool.not_eq_false, Bool.and_eq_true, beq_iff_eq] at hu
      obtain ⟨w, hw, h⟩ := andThen_eq_next.mp h
      obtain ⟨s2, h2, h⟩ := andThen_eq_next.mp h
      injection h with h
      exact .inr ⟨hu.1, hu.2, w, s2, hw, h2, h.symm⟩

/-- A usable record that is not exited runs the word its fetch gives. -/
theorem step_of_fetch {s s1 : State} {w : BitVec 32} (h1 : deliverInput s = .next s1) (h2 : s1.exited = 0)
    (h3 : s1.regs[0] = 0) (hw : fetch s1 = .next w) :
    step s = andThen (exec (decode w) s1) fun s2 => .next (deliverOutput s2) := by
  simp [step, h1, h2, h3, recordUsable, hw]

/-- A leaf read at a leaf address reverts with nothing but `badProof` (R64). -/
theorem getMemoryB32_fault {s : State} {addr : Word} {p : Nat} {e : Fault}
    (h : getMemoryB32 s (leafBase addr) p = .fault e) : e = .badProof := by
  unfold getMemoryB32 at h
  rw [if_neg (by rw [leafBase_and_31]; exact fun hne => hne rfl)] at h
  split at h
  · split at h
    · simp at h
    · split at h
      · simp at h
      · simpa [revert] using h.symm
  · rename_i calldata _ _
    cases hb : proofBlock calldata p with
    | next b =>
      rw [hb, andThen_next] at h
      split at h
      · simp at h
      · simpa [revert] using h.symm
    | fault f =>
      unfold proofBlock at hb
      split_ifs at hb
    | refused r =>
      rw [hb] at h
      simp at h

/-- A load reverts with nothing but `badProof` (R140). -/
theorem loadMem_fault {s : State} {addr : Word} {size : Nat} {signed : Bool} {pL pR : Nat} {e : Fault}
    (h : loadMem s addr size signed pL pR = .fault e) : e = .badProof := by
  unfold loadMem at h
  cases hl : getMemoryB32 s (leafBase addr) pL with
  | next left =>
    rw [hl, andThen_next] at h
    split at h
    · simp at h
    · cases hr : getMemoryB32 s (leafBase (lastByte addr size)) pR with
      | next right => rw [hr] at h; simp at h
      | fault f =>
        rw [hr] at h
        simp only [andThen_fault, Host.Outcome.fault.injEq] at h
        exact h ▸ getMemoryB32_fault hr
      | refused r => rw [hr] at h; simp at h
  | fault f =>
    rw [hl] at h
    simp only [andThen_fault, Host.Outcome.fault.injEq] at h
    exact h ▸ getMemoryB32_fault hl
  | refused r => rw [hl] at h; simp at h

/-! ### Proof blocks as bytes -/

/-- A proof block of 2048 bytes (R37): the leaf, its siblings, and zeros in the unused words. -/
def proofBytes (leaf : Bytes32) (sibs : List Bytes32) : List Byte :=
  (leaf :: sibs).flatMap bytes32List ++ List.replicate (2048 - 32 * (1 + sibs.length)) 0

theorem length_bytes32List (b : Bytes32) : (bytes32List b).length = 32 := by simp [bytes32List]

theorem length_flatMap_bytes32List (bs : List Bytes32) : (bs.flatMap bytes32List).length = 32 * bs.length := by
  induction bs with
  | nil => rfl
  | cons b bs ih =>
    rw [List.flatMap_cons, List.length_append, length_bytes32List, ih, List.length_cons]
    omega

theorem length_proofBytes (leaf : Bytes32) (sibs : List Bytes32) (h : sibs.length ≤ 63) :
    (proofBytes leaf sibs).length = 2048 := by
  simp only [proofBytes, List.length_append, length_flatMap_bytes32List, List.length_cons, List.length_replicate]
  omega

theorem bytes32At_append (pre post : List Byte) (b : Bytes32) :
    bytes32At (pre ++ (bytes32List b ++ post)) pre.length = b := by
  rw [bytes32At]
  refine Eq.trans (bytes32Of_congr _ (byteOf b) fun j hj => ?_) (bytes32Of_byteOf b)
  rw [List.getD_append_right _ _ _ _ (by omega), Nat.add_sub_cancel_left,
    List.getD_append _ _ _ _ (by rw [length_bytes32List]; exact hj)]
  simp [bytes32List, hj]

theorem bytes32At_flatMap (pre post : List Byte) (bs : List Bytes32) (i : Nat) (h : i < bs.length) :
    bytes32At (pre ++ (bs.flatMap bytes32List ++ post)) (pre.length + 32 * i) = bs[i] := by
  induction bs generalizing pre i with
  | nil => simp at h
  | cons b bs ih =>
    rw [List.flatMap_cons, List.append_assoc]
    cases i with
    | zero => exact bytes32At_append pre _ b
    | succ i =>
      have := ih (pre ++ bytes32List b) i (by simpa using h)
      rw [List.append_assoc, List.length_append, length_bytes32List] at this
      rw [show pre.length + 32 * (i + 1) = pre.length + 32 + 32 * i by omega, this]
      rfl

/-- A proof block that stands in calldata as bytes is read back word for word (R37, R63). -/
theorem proofBlock_append (pre post : List Byte) (leaf : Bytes32) (sibs : List Bytes32) (p : Nat) (hp : p ≠ noProof)
    (hpre : pre.length = blockStart p) (hs : sibs.length = 59) :
    proofBlock (pre ++ (proofBytes leaf sibs ++ post)) p = .next (leaf, sibs) := by
  have hlen := length_proofBytes leaf sibs (by omega)
  rw [proofBlock, if_neg hp, if_neg (by simp only [List.length_append, hlen, hpre]; omega)]
  have hread : ∀ i, i < 60 → bytes32At (pre ++ (proofBytes leaf sibs ++ post)) (blockStart p + 32 * i) =
      (leaf :: sibs).getD i 0 := by
    intro i hi
    rw [proofBytes, List.append_assoc, ← hpre, bytes32At_flatMap _ _ _ _ (by simp [hs]; omega)]
    simp [List.getD_eq_getElem?_getD, hs, hi]
  have h0 := hread 0 (by omega)
  rw [Nat.mul_zero, Nat.add_zero] at h0
  rw [h0]
  congr 2
  apply List.ext_getElem
  · simp [hs, merkleDepth]
  · intro i h1 h2
    have hi : i < 59 := by simpa [merkleDepth] using h1
    rw [List.getElem_map, List.getElem_range, Nat.add_comm 1 i, hread (i + 1) (by omega)]
    simp [List.getD_eq_getElem?_getD, hs, hi]

end Sys2Proof.Machine
end

