-- ==== Sys2Proof/Tests/Slice0.lean ====
section
/-! SUPPORT. The model's own tests: ill-formed terms that the check refuses, words of the spec, small steps with results the
spec prints, and for every statement with hypotheses a state and operands that meet them. -/

namespace Sys2Proof.Tests

open Sys2Proof.Machine

/-! ### Reading an outcome -/

/-- Whether an operation completed. -/
def isNext {α : Type} : Result α → Bool
  | .next _ => true
  | .fault _ => false
  | .refused _ => false

/-- A register after an instruction. -/
def regAfter (r : Result State) (i : Reg) : Option Word :=
  match r with
  | .next s => some (getReg s i)
  | .fault _ => none
  | .refused _ => none

/-- The pc after an instruction. -/
def pcAfter (r : Result State) : Option Word :=
  match r with
  | .next s => some s.pc
  | .fault _ => none
  | .refused _ => none

/-- Eight bytes of memory after an instruction, as a number. -/
def doubleAfter (r : Result State) (addr : Word) : Option Word :=
  match r with
  | .next s => some (doubleAt s addr)
  | .fault _ => none
  | .refused _ => none

/-- The fatal revert an operation ended in. -/
def faultOf {α : Type} : Result α → Option Fault
  | .next _ => none
  | .fault e => some e
  | .refused _ => none

/-- The refusal an operation ended in. -/
def refusalOf {α : Type} : Result α → Option Refusal
  | .next _ => none
  | .fault _ => none
  | .refused r => some r

theorem next_of_isNext {α : Type} {r : Result α} (h : isNext r = true) : ∃ a, r = .next a := by
  cases r with
  | next a => exact ⟨a, rfl⟩
  | fault e => simp [isNext] at h
  | refused e => simp [isNext] at h

theorem fault_of_faultOf {α : Type} {r : Result α} {e : Fault} (h : faultOf r = some e) : r = .fault e := by
  cases r with
  | next a => simp [faultOf] at h
  | fault f => simpa [faultOf] using h
  | refused f => simp [faultOf] at h

theorem refused_of_refusalOf {α : Type} {r : Result α} {e : Refusal} (h : refusalOf r = some e) : r = .refused e := by
  cases r with
  | next a => simp [refusalOf] at h
  | fault f => simp [refusalOf] at h
  | refused f => simpa [refusalOf] using h

/-- A small state: pc, some registers, memory. -/
def start (pc : Word) (regs : List (Reg × Word)) (mem : Memory) : State :=
  { State.reset with
    pc := pc
    regs := regs.foldl (fun v p => writeReg v p.1 p.2) State.reset.regs
    mem := mem
    root := .ofMemory }

/-- Running the instruction of a word. -/
def runWord (w : BitVec 32) (s : State) : Result State := exec (decode w) s

/-- An ECALL with the syscall number and its three arguments in x17, x10, x11 and x12. -/
def call (a7 a0 a1 a2 : Word) : State := start 0x40 [(17, a7), (10, a0), (11, a1), (12, a2)] []

/-! ### Well-formedness refuses -/

theorem test_wf_odd_branch_offsets :
    WellFormed (.beq 1 2 1) = false ∧ WellFormed (.bne 1 2 1) = false ∧ WellFormed (.blt 1 2 1) = false ∧
      WellFormed (.bge 1 2 1) = false ∧ WellFormed (.bltu 1 2 1) = false ∧ WellFormed (.bgeu 1 2 1) = false ∧
      WellFormed (.jal 1 3) = false ∧ WellFormed (.rsvBranch 2 1 2 1) = false := by decide

theorem test_wf_catch_alls_refuse_listed_values :
    WellFormed (.rsvStore 3 1 2 0) = false ∧ WellFormed (.rsvBranch 4 1 2 0) = false ∧
      WellFormed (.rsvOpImm 0 1 1 2 0) = false ∧ WellFormed (.rsvOpImm 0x10 5 1 2 0) = false ∧
      WellFormed (.rsvOpImm32 0 1 1 2 0) = false ∧ WellFormed (.rsvOp 1 3 1 2 3) = false ∧
      WellFormed (.rsvOp32 1 4 1 2 3) = false ∧ WellFormed (.rsvSystem0 0 0 0) = false ∧
      WellFormed (.rsvSystem0 0 0 1) = false ∧ WellFormed (.rsvAmoSize 0 2 1 2 3 0 0) = false ∧
      WellFormed (.rsvAmoWidth 0 3 1 2 3 0 0) = false ∧ WellFormed (.rsvAmoOp 4 2 1 2 3 0 0) = false ∧
      WellFormed (.rsvAmoOp 5 1 1 2 3 0 0) = false ∧ WellFormed (.rsvMiscmem 1 0 0 0) = false ∧
      WellFormed (.rsvUnknown 0x13) = false := by decide

/-! ### Decoding: words of the spec, in hexadecimal as it prints them, and bit by bit by the formats of R110 -/

/-- R141 to R148. -/
theorem test_decode_loads :
    decode 0x00028103 = .lb 2 5 0 ∧
      decode 0x00029103 = .lh 2 5 0 ∧
      decode 0x0002A103 = .lw 2 5 0 ∧
      decode 0x0002B103 = .ld 2 5 0 ∧
      decode 0x0002C103 = .lbu 2 5 0 ∧
      decode 0x0002D103 = .lhu 2 5 0 ∧
      decode 0x0002E103 = .lwu 2 5 0 ∧
      decode 0x0002F103 = .rsvLoad7 2 5 0 := by decide

/-- R151 to R155. -/
theorem test_decode_stores :
    decode 0x00128023 = .sb 5 1 0 ∧
      decode 0x00129023 = .sh 5 1 0 ∧
      decode 0x0012A023 = .sw 5 1 0 ∧
      decode 0x0012B023 = .sd 5 1 0 ∧
      decode 0x0012C023 = .rsvStore 4 5 1 0 := by decide

/-- R161 to R167. -/
theorem test_decode_branches :
    decode 0x00208463 = .beq 1 2 8 ∧
      decode 0xFE029CE3 = .bne 5 0 0x1FF8 ∧
      decode 0x0020C463 = .blt 1 2 8 ∧
      decode 0x0020D463 = .bge 1 2 8 ∧
      decode 0x0020E463 = .bltu 1 2 8 ∧
      decode 0x0020F463 = .bgeu 1 2 8 ∧
      decode 0x0020A463 = .rsvBranch 2 1 2 8 := by decide

/-- R171 to R179, R185. -/
theorem test_decode_op_imm :
    decode 0x00500093 = .addi 1 0 5 ∧
      decode 0xFFF32293 = .slti 5 6 0xFFF ∧
      decode 0xFFF33293 = .sltiu 5 6 0xFFF ∧
      decode 0xFFF34293 = .xori 5 6 0xFFF ∧
      decode 0xFFF36293 = .ori 5 6 0xFFF ∧
      decode 0xFFF37293 = .andi 5 6 0xFFF ∧
      decode 0x03F31293 = .slli 5 6 63 ∧
      decode 0x03F35293 = .srli 5 6 63 ∧
      decode 0x43F35293 = .srai 5 6 63 ∧
      decode 0x43F31293 = .rsvOpImm 0x10 1 5 6 63 := by decide

/-- R181 to R184, R186. -/
theorem test_decode_op_imm_32 :
    decode 0x0013029B = .addiw 5 6 1 ∧
      decode 0x01F3129B = .slliw 5 6 31 ∧
      decode 0x01F3529B = .srliw 5 6 31 ∧
      decode 0x41F3529B = .sraiw 5 6 31 ∧
      decode 0x0013229B = .rsvOpImm32 0 2 5 6 1 := by decide

/-- R191 to R200, R207. -/
theorem test_decode_op :
    decode 0x002081B3 = .add 3 1 2 ∧
      decode 0x402081B3 = .sub 3 1 2 ∧
      decode 0x002091B3 = .sll 3 1 2 ∧
      decode 0x0020A1B3 = .slt 3 1 2 ∧
      decode 0x0020B1B3 = .sltu 3 1 2 ∧
      decode 0x0020C1B3 = .xor 3 1 2 ∧
      decode 0x0020D1B3 = .srl 3 1 2 ∧
      decode 0x4020D1B3 = .sra 3 1 2 ∧
      decode 0x0020E1B3 = .or 3 1 2 ∧
      decode 0x0020F1B3 = .and 3 1 2 ∧
      decode 0x402091B3 = .rsvOp 0x20 1 3 1 2 := by decide

/-- R202 to R206, R208. -/
theorem test_decode_op_32 :
    decode 0x002081BB = .addw 3 1 2 ∧
      decode 0x402081BB = .subw 3 1 2 ∧
      decode 0x002091BB = .sllw 3 1 2 ∧
      decode 0x0020D1BB = .srlw 3 1 2 ∧
      decode 0x4020D1BB = .sraw 3 1 2 ∧
      decode 0x0020A1BB = .rsvOp32 0 2 3 1 2 := by decide

/-- R211 to R224. -/
theorem test_decode_muldiv :
    decode 0x022081B3 = .mul 3 1 2 ∧
      decode 0x022091B3 = .mulh 3 1 2 ∧
      decode 0x0220A1B3 = .mulhsu 3 1 2 ∧
      decode 0x0220B1B3 = .mulhu 3 1 2 ∧
      decode 0x0220C1B3 = .div 3 1 2 ∧
      decode 0x0220D1B3 = .divu 3 1 2 ∧
      decode 0x0220E233 = .rem 4 1 2 ∧
      decode 0x0220F1B3 = .remu 3 1 2 ∧
      decode 0x022081BB = .mulw 3 1 2 ∧
      decode 0x0220C1BB = .divw 3 1 2 ∧
      decode 0x0220D1BB = .divuw 3 1 2 ∧
      decode 0x0220E1BB = .remw 3 1 2 ∧
      decode 0x0220F1BB = .remuw 3 1 2 := by decide

/-- R230 to R233. -/
theorem test_decode_upper_jumps :
    decode 0x12345537 = .lui 10 0x12345 ∧
      decode 0x00001297 = .auipc 5 1 ∧
      decode 0x010000EF = .jal 1 16 ∧
      decode 0xFF9FF06F = .jal 0 0x1FFFF8 ∧
      decode 0x004280E7 = .jalr 0 1 5 4 := by decide

/-- R241 to R252. -/
theorem test_decode_system :
    decode 0x00000073 = .ecall 0 0 ∧
      decode 0x00100073 = .ebreak 0 0 ∧
      decode 0x30200073 = .rsvSystem0 0 0 0x302 ∧
      decode 0x300312F3 = .csrrw 5 6 0x300 ∧
      decode 0xC00022F3 = .csrrs 5 0 0xC00 ∧
      decode 0x300332F3 = .csrrc 5 6 0x300 ∧
      decode 0x300FD2F3 = .csrrwi 5 31 0x300 ∧
      decode 0x300FE2F3 = .csrrsi 5 31 0x300 ∧
      decode 0x300FF2F3 = .csrrci 5 31 0x300 ∧
      decode 0x300342F3 = .rsvSystem4 5 6 0x300 := by decide

/-- R301 to R316, R326, R327. -/
theorem test_decode_atomics_w :
    decode 0x1003A2AF = .lrW 5 7 0 0 0 ∧
      decode 0x1863A2AF = .scW 5 7 6 0 0 ∧
      decode 0x0863A2AF = .amoswapW 5 7 6 0 0 ∧
      decode 0x0063A2AF = .amoaddW 5 7 6 0 0 ∧
      decode 0x0663A2AF = .amoaddW 5 7 6 1 1 ∧
      decode 0x2063A2AF = .amoxorW 5 7 6 0 0 ∧
      decode 0x6063A2AF = .amoandW 5 7 6 0 0 ∧
      decode 0x4063A2AF = .amoorW 5 7 6 0 0 ∧
      decode 0x8063A2AF = .amominW 5 7 6 0 0 ∧
      decode 0xA063A2AF = .amomaxW 5 7 6 0 0 ∧
      decode 0xC063A2AF = .amominuW 5 7 6 0 0 ∧
      decode 0xE063A2AF = .amomaxuW 5 7 6 0 0 ∧
      decode 0x006382AF = .rsvAmoSize 0 0 5 7 6 0 0 ∧
      decode 0x0063C2AF = .rsvAmoWidth 0 4 5 7 6 0 0 ∧
      decode 0x2863A2AF = .rsvAmoOp 5 2 5 7 6 0 0 := by decide

/-- R304, R306, R317 to R325. -/
theorem test_decode_atomics_d :
    decode 0x1003B2AF = .lrD 5 7 0 0 0 ∧
      decode 0x1863B2AF = .scD 5 7 6 0 0 ∧
      decode 0x0863B2AF = .amoswapD 5 7 6 0 0 ∧
      decode 0x0063B2AF = .amoaddD 5 7 6 0 0 ∧
      decode 0x2063B2AF = .amoxorD 5 7 6 0 0 ∧
      decode 0x6063B2AF = .amoandD 5 7 6 0 0 ∧
      decode 0x4063B2AF = .amoorD 5 7 6 0 0 ∧
      decode 0x8063B2AF = .amominD 5 7 6 0 0 ∧
      decode 0xA063B2AF = .amomaxD 5 7 6 0 0 ∧
      decode 0xC063B2AF = .amominuD 5 7 6 0 0 ∧
      decode 0xE063B2AF = .amomaxuD 5 7 6 0 0 := by decide

/-- R331 to R336, R109. -/
theorem test_decode_fence_fp :
    decode 0x0FF0000F = .fence 0 0 0x0FF ∧
      decode 0x0000100F = .fenceI 0 0 0 ∧
      decode 0x0000200F = .rsvMiscmem 2 0 0 0 ∧
      decode 0x0002A087 = .fpLoad 0x541 ∧
      decode 0x0012B427 = .fpStore 0x2568 ∧
      decode 0x023170D3 = .fpOp 0x462E1 ∧
      decode 0x00000000 = .rsvUnknown 0 ∧
      decode 0x1A3170C3 = .rsvUnknown 0x1A3170C3 := by decide

theorem test_bits_load : decode 0b000000000000_00101_011_00010_0000011 = .ld 2 5 0 := by decide

theorem test_bits_store : decode 0b0000000_00001_00101_011_00000_0100011 = .sd 5 1 0 := by decide

theorem test_bits_branch : decode 0b1_111111_00000_00101_001_1100_1_1100011 = .bne 5 0 0x1FF8 := by decide

theorem test_bits_op_imm : decode 0b000000000101_00000_000_00001_0010011 = .addi 1 0 5 := by decide

theorem test_bits_op_imm_32 : decode 0b0100000_11111_00110_101_00101_0011011 = .sraiw 5 6 31 := by decide

theorem test_bits_op : decode 0b0100000_00010_00001_101_00011_0110011 = .sra 3 1 2 := by decide

theorem test_bits_op_32 : decode 0b0100000_00010_00001_000_00011_0111011 = .subw 3 1 2 := by decide

theorem test_bits_muldiv : decode 0b0000001_00010_00001_100_00011_0110011 = .div 3 1 2 := by decide

theorem test_bits_lui : decode 0b00010010001101000101_01010_0110111 = .lui 10 0x12345 := by decide

theorem test_bits_jal : decode 0b1_1111111100_1_11111111_00000_1101111 = .jal 0 0x1FFFF8 := by decide

theorem test_bits_jalr : decode 0b000000000100_00101_000_00001_1100111 = .jalr 0 1 5 4 := by decide

theorem test_bits_system : decode 0b001100000000_11111_101_00101_1110011 = .csrrwi 5 31 0x300 := by decide

theorem test_bits_atomic : decode 0b11100_0_0_00110_00111_010_00101_0101111 = .amomaxuW 5 7 6 0 0 := by decide

theorem test_bits_fence : decode 0b0000_1111_1111_00000_000_00000_0001111 = .fence 0 0 0x0FF := by decide

theorem test_bits_fp : decode 0b0000001_00011_00010_111_00001_1010011 = .fpOp 0x462E1 := by decide

/-- R119: the word as the opcode table numbers its bits, through the bytes in memory. -/
theorem test_table_word : decodeTableWord 32 0x00500093 = some (.addi 1 0 5) := by decide

theorem test_too_short : decodeBytes [0x93, 0, 0x50] = .error .tooShort := by decide

/-! ### Small steps, with the results the spec prints -/

/-- The doubleword of scenario S4 at 0x1000. -/
def s4Memory : Memory :=
  [(0x1000, 0xBE), (0x1001, 0xBA), (0x1002, 0xFE), (0x1003, 0xCA), (0x1004, 0xEF), (0x1005, 0xBE), (0x1006, 0xAD), (0x1007, 0xDE)]

/-- Examples of R141 to R147. -/
theorem test_loads :
    regAfter (runWord 0x00028103 (start 0 [(5, 0x1000)] s4Memory)) 2 = some 0xFFFFFFFFFFFFFFBE ∧
      regAfter (runWord 0x00029103 (start 0 [(5, 0x1000)] s4Memory)) 2 = some 0xFFFFFFFFFFFFBABE ∧
      regAfter (runWord 0x0002A103 (start 0 [(5, 0x1000)] s4Memory)) 2 = some 0xFFFFFFFFCAFEBABE ∧
      regAfter (runWord 0x0002B103 (start 0 [(5, 0x1000)] s4Memory)) 2 = some 0xDEADBEEFCAFEBABE ∧
      regAfter (runWord 0x0002C103 (start 0 [(5, 0x1000)] s4Memory)) 2 = some 0xBE ∧
      regAfter (runWord 0x0002D103 (start 0 [(5, 0x1000)] s4Memory)) 2 = some 0xBABE ∧
      regAfter (runWord 0x0002E103 (start 0 [(5, 0x1000)] s4Memory)) 2 = some 0xCAFEBABE ∧
      regAfter (runWord 0x0002F103 (start 0 [(5, 0x1000)] s4Memory)) 2 = some 0xDEADBEEFCAFEBABE := by decide

/-- R66, R70: a doubleword over two leaves, and one past the top of the address space. -/
theorem test_load_crosses_leaves_and_wraps :
    regAfter (runWord 0x0002B103 (start 0 [(5, 0x101C)] [(0x101F, 0x11), (0x1020, 0x22)])) 2 = some 0x0000002211000000 ∧
      regAfter (runWord 0x0002B103 (start 0 [(5, 0xFFFFFFFFFFFFFFFE)] [(0, 0x33), (0xFFFFFFFFFFFFFFFF, 0x44)])) 2 = some 0x0000000000334400 := by decide

/-- Examples of R151 to R154; the last one crosses a leaf. -/
theorem test_stores :
    doubleAfter (runWord 0x00128023 (start 0 [(1, 0xDEADBEEFCAFEBABE), (5, 0x1000)] [])) 0x1000 = some 0xBE ∧
      doubleAfter (runWord 0x00129023 (start 0 [(1, 0xDEADBEEFCAFEBABE), (5, 0x1000)] [])) 0x1000 = some 0xBABE ∧
      doubleAfter (runWord 0x0012A023 (start 0 [(1, 0xDEADBEEFCAFEBABE), (5, 0x1000)] [])) 0x1000 = some 0xCAFEBABE ∧
      doubleAfter (runWord 0x0012B023 (start 0 [(1, 0xDEADBEEFCAFEBABE), (5, 0x1000)] [])) 0x1000 = some 0xDEADBEEFCAFEBABE ∧
      doubleAfter (runWord 0x0012B023 (start 0 [(1, 0xDEADBEEFCAFEBABE), (5, 0x101D)] [])) 0x101D = some 0xDEADBEEFCAFEBABE := by decide

/-- Examples of R161 to R166. -/
theorem test_branches :
    pcAfter (runWord 0x00208463 (start 0 [(1, 3), (2, 3)] [])) = some 8 ∧
      pcAfter (runWord 0x00208463 (start 0 [(1, 3), (2, 4)] [])) = some 4 ∧
      pcAfter (runWord 0xFE029CE3 (start 0x10 [(5, 1)] [])) = some 8 ∧
      pcAfter (runWord 0xFE029CE3 (start 0x10 [] [])) = some 0x14 ∧
      pcAfter (runWord 0x0020C463 (start 0 [(1, 0xFFFFFFFFFFFFFFFF), (2, 1)] [])) = some 8 ∧
      pcAfter (runWord 0x0020D463 (start 0 [(1, 0xFFFFFFFFFFFFFFFF), (2, 1)] [])) = some 4 ∧
      pcAfter (runWord 0x0020E463 (start 0 [(1, 0xFFFFFFFFFFFFFFFF), (2, 1)] [])) = some 4 ∧
      pcAfter (runWord 0x0020F463 (start 0 [(1, 0xFFFFFFFFFFFFFFFF), (2, 1)] [])) = some 8 := by decide

/-- Examples of R171 to R179. -/
theorem test_op_imm :
    regAfter (runWord 0x00500093 (start 0 [] [])) 1 = some 5 ∧
      regAfter (runWord 0xFFF32293 (start 0 [(6, 0xFFFFFFFFFFFFFFFE)] [])) 5 = some 1 ∧
      regAfter (runWord 0xFFF33293 (start 0 [(6, 5)] [])) 5 = some 1 ∧
      regAfter (runWord 0xFFF34293 (start 0 [(6, 0x00000000FFFF0000)] [])) 5 = some 0xFFFFFFFF0000FFFF ∧
      regAfter (runWord 0xFFF36293 (start 0 [(6, 7)] [])) 5 = some 0xFFFFFFFFFFFFFFFF ∧
      regAfter (runWord 0xFFF37293 (start 0 [(6, 7)] [])) 5 = some 7 ∧
      regAfter (runWord 0x03F31293 (start 0 [(6, 1)] [])) 5 = some 0x8000000000000000 ∧
      regAfter (runWord 0x03F35293 (start 0 [(6, 0x8000000000000000)] [])) 5 = some 1 ∧
      regAfter (runWord 0x43F35293 (start 0 [(6, 0x8000000000000000)] [])) 5 = some 0xFFFFFFFFFFFFFFFF := by decide

/-- Examples of R181 to R184. -/
theorem test_op_imm_32 :
    regAfter (runWord 0x0013029B (start 0 [(6, 0x7FFFFFFF)] [])) 5 = some 0xFFFFFFFF80000000 ∧
      regAfter (runWord 0x01F3129B (start 0 [(6, 1)] [])) 5 = some 0xFFFFFFFF80000000 ∧
      regAfter (runWord 0x01F3529B (start 0 [(6, 0xFFFFFFFF80000000)] [])) 5 = some 1 ∧
      regAfter (runWord 0x41F3529B (start 0 [(6, 0x80000000)] [])) 5 = some 0xFFFFFFFFFFFFFFFF := by decide

/-- Examples of R191 to R200. -/
theorem test_op :
    regAfter (runWord 0x002081B3 (start 0 [(1, 0xFFFFFFFFFFFFFFFF), (2, 2)] [])) 3 = some 1 ∧
      regAfter (runWord 0x402081B3 (start 0 [(1, 3), (2, 5)] [])) 3 = some 0xFFFFFFFFFFFFFFFE ∧
      regAfter (runWord 0x002091B3 (start 0 [(1, 1), (2, 0x47)] [])) 3 = some 0x80 ∧
      regAfter (runWord 0x0020A1B3 (start 0 [(1, 0xFFFFFFFFFFFFFFFF), (2, 1)] [])) 3 = some 1 ∧
      regAfter (runWord 0x0020B1B3 (start 0 [(1, 0xFFFFFFFFFFFFFFFF), (2, 1)] [])) 3 = some 0 ∧
      regAfter (runWord 0x0020C1B3 (start 0 [(1, 0xFF00), (2, 0x0FF0)] [])) 3 = some 0xF0F0 ∧
      regAfter (runWord 0x0020D1B3 (start 0 [(1, 0x8000000000000000), (2, 63)] [])) 3 = some 1 ∧
      regAfter (runWord 0x4020D1B3 (start 0 [(1, 0x8000000000000000), (2, 4)] [])) 3 = some 0xF800000000000000 ∧
      regAfter (runWord 0x0020E1B3 (start 0 [(1, 0xFF00), (2, 0x0FF0)] [])) 3 = some 0xFFF0 ∧
      regAfter (runWord 0x0020F1B3 (start 0 [(1, 0xFF00), (2, 0x0FF0)] [])) 3 = some 0x0F00 := by decide

/-- Examples of R202 to R206. -/
theorem test_op_32 :
    regAfter (runWord 0x002081BB (start 0 [(1, 0x7FFFFFFF), (2, 1)] [])) 3 = some 0xFFFFFFFF80000000 ∧
      regAfter (runWord 0x402081BB (start 0 [(1, 0), (2, 1)] [])) 3 = some 0xFFFFFFFFFFFFFFFF ∧
      regAfter (runWord 0x002091BB (start 0 [(1, 1), (2, 31)] [])) 3 = some 0xFFFFFFFF80000000 ∧
      regAfter (runWord 0x0020D1BB (start 0 [(1, 0xFFFFFFFF80000000), (2, 31)] [])) 3 = some 1 ∧
      regAfter (runWord 0x4020D1BB (start 0 [(1, 0x80000000), (2, 4)] [])) 3 = some 0xFFFFFFFFF8000000 := by decide

/-- Examples of R211 to R214 and R220. -/
theorem test_multiply :
    regAfter (runWord 0x022081B3 (start 0 [(1, 0xFFFFFFFFFFFFFFFF), (2, 0xFFFFFFFFFFFFFFFF)] [])) 3 = some 1 ∧
      regAfter (runWord 0x022091B3 (start 0 [(1, 0x8000000000000000), (2, 0x8000000000000000)] [])) 3 = some 0x4000000000000000 ∧
      regAfter (runWord 0x0220A1B3 (start 0 [(1, 0xFFFFFFFFFFFFFFFF), (2, 0xFFFFFFFFFFFFFFFF)] [])) 3 = some 0xFFFFFFFFFFFFFFFF ∧
      regAfter (runWord 0x0220B1B3 (start 0 [(1, 0xFFFFFFFFFFFFFFFF), (2, 0xFFFFFFFFFFFFFFFF)] [])) 3 = some 0xFFFFFFFFFFFFFFFE ∧
      regAfter (runWord 0x022081BB (start 0 [(1, 0x80000000), (2, 1)] [])) 3 = some 0xFFFFFFFF80000000 := by decide

/-- Examples of R215 to R218 and rows of the table of R225. -/
theorem test_divide :
    regAfter (runWord 0x0220C1B3 (start 0 [(1, 0x8000000000000000), (2, 0xFFFFFFFFFFFFFFFF)] [])) 3 = some 0x8000000000000000 ∧
      regAfter (runWord 0x0220C1B3 (start 0 [(1, 0xFFFFFFFFFFFFFFF9), (2, 2)] [])) 3 = some 0xFFFFFFFFFFFFFFFD ∧
      regAfter (runWord 0x0220C1B3 (start 0 [(1, 9), (2, 0)] [])) 3 = some 0xFFFFFFFFFFFFFFFF ∧
      regAfter (runWord 0x0220D1B3 (start 0 [(1, 0xFFFFFFFFFFFFFFFF), (2, 2)] [])) 3 = some 0x7FFFFFFFFFFFFFFF ∧
      regAfter (runWord 0x0220E233 (start 0 [(1, 0x8000000000000000), (2, 0xFFFFFFFFFFFFFFFF)] [])) 4 = some 0 ∧
      regAfter (runWord 0x0220E233 (start 0 [(1, 0xFFFFFFFFFFFFFFF9), (2, 2)] [])) 4 = some 0xFFFFFFFFFFFFFFFF ∧
      regAfter (runWord 0x0220E233 (start 0 [(1, 0xFFFFFFFFFFFFFFF9), (2, 0)] [])) 4 = some 0xFFFFFFFFFFFFFFF9 ∧
      regAfter (runWord 0x0220F1B3 (start 0 [(1, 0xFFFFFFFFFFFFFFFF), (2, 16)] [])) 3 = some 15 ∧
      regAfter (runWord 0x0220F1B3 (start 0 [(1, 9), (2, 0)] [])) 3 = some 9 := by decide

/-- R221 to R225 at width 32: overflow, by zero, and the sign-extended dividend. -/
theorem test_divide_word :
    regAfter (runWord 0x0220C1BB (start 0 [(1, 0x80000000), (2, 0xFFFFFFFF)] [])) 3 = some 0xFFFFFFFF80000000 ∧
      regAfter (runWord 0x0220D1BB (start 0 [(1, 5), (2, 0)] [])) 3 = some 0xFFFFFFFFFFFFFFFF ∧
      regAfter (runWord 0x0220E1BB (start 0 [(1, 0x80000000), (2, 0xFFFFFFFF)] [])) 3 = some 0 ∧
      regAfter (runWord 0x0220F1BB (start 0 [(1, 0x80000000), (2, 0)] [])) 3 = some 0xFFFFFFFF80000000 := by decide

/-- Examples of R230 to R233. -/
theorem test_upper_and_jumps :
    regAfter (runWord 0x800002B7 (start 0 [] [])) 5 = some 0xFFFFFFFF80000000 ∧
      regAfter (runWord 0xFFFFF297 (start 0x2000 [] [])) 5 = some 0x1000 ∧
      regAfter (runWord 0x010000EF (start 0x100 [] [])) 1 = some 0x104 ∧
      pcAfter (runWord 0x010000EF (start 0x100 [] [])) = some 0x110 ∧
      regAfter (runWord 0x004280E7 (start 0x100 [(5, 0x2001)] [])) 1 = some 0x104 ∧
      pcAfter (runWord 0x004280E7 (start 0x100 [(5, 0x2001)] [])) = some 0x2004 ∧
      pcAfter (runWord 0x000080E7 (start 0x100 [(1, 0x2001)] [])) = some 0x2000 := by decide

/-- Examples of R243, R246, R247, R251, R252. -/
theorem test_system :
    pcAfter (runWord 0x00100073 (start 0x40 [] [])) = some 0x44 ∧
      pcAfter (runWord 0x10500073 (start 0x40 [] [])) = some 0x44 ∧
      regAfter (runWord 0x300312F3 (start 0 [(5, 9), (6, 8)] [])) 5 = some 0 ∧
      regAfter (runWord 0xC00022F3 (start 0 [(5, 9)] [])) 5 = some 0 ∧
      regAfter (runWord 0x300FF2F3 (start 0 [(5, 9)] [])) 5 = some 0 ∧
      faultOf (runWord 0x300342F3 State.reset) = some .invalidCsrMode := by decide

/-- Examples of R314 to R316, and R309 with aq and rl set: the operand is the word alone. -/
theorem test_amo_words :
    regAfter (runWord 0xA063A2AF (start 0 [(6, 1), (7, 0x1000)] [(0x1000, 0xFF), (0x1001, 0xFF), (0x1002, 0xFF), (0x1003, 0xFF)])) 5 = some 0xFFFFFFFFFFFFFFFF ∧
      doubleAfter (runWord 0xA063A2AF (start 0 [(6, 1), (7, 0x1000)] [(0x1000, 0xFF), (0x1001, 0xFF), (0x1002, 0xFF), (0x1003, 0xFF)])) 0x1000 = some 1 ∧
      regAfter (runWord 0xC063A2AF (start 0 [(6, 1), (7, 0x1000)] [(0x1000, 0xFF), (0x1001, 0xFF), (0x1002, 0xFF), (0x1003, 0xFF)])) 5 = some 0xFFFFFFFFFFFFFFFF ∧
      doubleAfter (runWord 0xC063A2AF (start 0 [(6, 1), (7, 0x1000)] [(0x1000, 0xFF), (0x1001, 0xFF), (0x1002, 0xFF), (0x1003, 0xFF)])) 0x1000 = some 1 ∧
      regAfter (runWord 0xE063A2AF (start 0 [(6, 1), (7, 0x1000)] [(0x1000, 0xFF), (0x1001, 0xFF), (0x1002, 0xFF), (0x1003, 0xFF)])) 5 = some 0xFFFFFFFFFFFFFFFF ∧
      doubleAfter (runWord 0xE063A2AF (start 0 [(6, 1), (7, 0x1000)] [(0x1000, 0xFF), (0x1001, 0xFF), (0x1002, 0xFF), (0x1003, 0xFF)])) 0x1000 = some 0xFFFFFFFF ∧
      regAfter (runWord 0x0663A2AF (start 0 [(6, 0xFFFFFFFF00000002), (7, 0x1000)] [(0x1000, 0xFF), (0x1001, 0xFF), (0x1002, 0xFF), (0x1003, 0xFF)])) 5 = some 0xFFFFFFFFFFFFFFFF ∧
      doubleAfter (runWord 0x0663A2AF (start 0 [(6, 0xFFFFFFFF00000002), (7, 0x1000)] [(0x1000, 0xFF), (0x1001, 0xFF), (0x1002, 0xFF), (0x1003, 0xFF)])) 0x1000 = some 1 := by decide

/-- Examples of R317, R322 to R325. -/
theorem test_amo_doublewords :
    regAfter (runWord 0x8063B2AF (start 0 [(6, 0x7FFFFFFFFFFFFFFF), (7, 0x1000)] [(0x1007, 0x80)])) 5 = some 0x8000000000000000 ∧
      doubleAfter (runWord 0x8063B2AF (start 0 [(6, 0x7FFFFFFFFFFFFFFF), (7, 0x1000)] [(0x1007, 0x80)])) 0x1000 = some 0x8000000000000000 ∧
      regAfter (runWord 0xA063B2AF (start 0 [(6, 0x7FFFFFFFFFFFFFFF), (7, 0x1000)] [(0x1007, 0x80)])) 5 = some 0x8000000000000000 ∧
      doubleAfter (runWord 0xA063B2AF (start 0 [(6, 0x7FFFFFFFFFFFFFFF), (7, 0x1000)] [(0x1007, 0x80)])) 0x1000 = some 0x7FFFFFFFFFFFFFFF ∧
      regAfter (runWord 0xC063B2AF (start 0 [(6, 0x7FFFFFFFFFFFFFFF), (7, 0x1000)] [(0x1007, 0x80)])) 5 = some 0x8000000000000000 ∧
      doubleAfter (runWord 0xC063B2AF (start 0 [(6, 0x7FFFFFFFFFFFFFFF), (7, 0x1000)] [(0x1007, 0x80)])) 0x1000 = some 0x7FFFFFFFFFFFFFFF ∧
      regAfter (runWord 0x0863B2AF (start 0 [(6, 0x2222222222222222), (7, 0x1000)] [(0x1007, 0x80)])) 5 = some 0x8000000000000000 ∧
      doubleAfter (runWord 0x0863B2AF (start 0 [(6, 0x2222222222222222), (7, 0x1000)] [(0x1007, 0x80)])) 0x1000 = some 0x2222222222222222 := by decide

/-- Examples of R305: success and failure. -/
theorem test_sc :
    regAfter (runWord 0x1863A2AF { start 0 [(6, 0x1122334455667788), (7, 0x1000)] [] with loadReservation := 0x1000 }) 5 = some 0 ∧
      doubleAfter (runWord 0x1863A2AF { start 0 [(6, 0x1122334455667788), (7, 0x1000)] [] with loadReservation := 0x1000 }) 0x1000 = some 0x55667788 ∧
      regAfter (runWord 0x1863A2AF { start 0 [(6, 0x1122334455667788), (7, 0x1000)] [] with loadReservation := 0x1008 }) 5 = some 1 ∧
      doubleAfter (runWord 0x1863A2AF { start 0 [(6, 0x1122334455667788), (7, 0x1000)] [] with loadReservation := 0x1008 }) 0x1000 = some 0 := by decide

/-- Example of R303. -/
theorem test_lr :
    (match runWord 0x1003A2AF (start 0 [(7, 0x1000)] [(0x1000, 1), (0x1003, 0x80)]) with
      | .next s => some (getReg s 5, s.loadReservation)
      | .fault _ => none
      | .refused _ => none) = some (0xFFFFFFFF80000001, 0x1000) := by decide

/-- Examples of R331 to R336; `fmv.x.d x5, f1` writes no register. -/
theorem test_fences_and_fp :
    pcAfter (runWord 0x0FF0000F (start 0x20 [] [])) = some 0x24 ∧
      pcAfter (runWord 0x0000100F (start 0x20 [] [])) = some 0x24 ∧
      pcAfter (runWord 0x0000200F (start 0x20 [] [])) = some 0x24 ∧
      pcAfter (runWord 0x0002A087 (start 0x20 [] [])) = some 0x24 ∧
      pcAfter (runWord 0x0012A027 (start 0x20 [] [])) = some 0x24 ∧
      regAfter (runWord 0xE20082D3 (start 0 [(5, 7)] [])) 5 = some 7 := by decide

/-- Examples of R264, R266 to R269 and R276. -/
theorem test_syscalls :
    regAfter (runWord 0x73 (call 214 0 0 0)) 10 = some 0x40000000 ∧
      regAfter (runWord 0x73 (call 63 7 0 0)) 10 = some 0xFFFFFFFFFFFFFFFF ∧
      regAfter (runWord 0x73 (call 63 7 0 0)) 11 = some 0x4D ∧
      regAfter (runWord 0x73 (call 64 1 0 13)) 10 = some 13 ∧
      regAfter (runWord 0x73 (call 25 6 3 0)) 10 = some 1 ∧
      regAfter (runWord 0x73 (call 25 1 1 0)) 11 = some 0x16 ∧
      regAfter (runWord 0x73 (call 56 0 0 0)) 11 = some 0xD ∧
      regAfter (runWord 0x73 (call 178 5 5 0)) 10 = some 0 ∧
      regAfter (runWord 0x73 (call 178 5 5 0)) 11 = some 0 := by decide

/-- Scenario S6 (R262): pc and registers stay. -/
theorem test_exit :
    (match runWord 0x73 (call 93 42 0 0) with
      | .next s => some (s.exited, s.exitCode, s.pc, getReg s 10)
      | .fault _ => none
      | .refused _ => none) = some (1, 42, 0x40, 42) := by decide

/-- Example of R265. -/
theorem test_mmap :
    (match runWord 0x73 { call 222 0 5000 0 with heap := 0x10000000 } with
      | .next s => some (getReg s 10, s.heap)
      | .fault _ => none
      | .refused _ => none) = some (0x10000000, 0x10002000) := by decide

/-- R272, R273: the bytes the spec prints, and the resource that is not 7. -/
theorem test_clock_and_rlimit :
    doubleAfter (runWord 0x73 (call 113 0 0x2000 0)) 0x2000 = some 1337 ∧
      doubleAfter (runWord 0x73 (call 113 0 0x2000 0)) 0x2008 = some 0x1374B68FA00 ∧
      doubleAfter (runWord 0x73 (call 163 7 0x2000 0)) 0x2008 = some 1024 ∧
      faultOf (runWord 0x73 (call 163 6 0x2000 0)) = some .unknownRlimit ∧
      faultOf (runWord 0x73 (call 0x10000005D 0 0 0)) = some .unknownSyscall := by decide

/-- A state about to write four bytes to fd 6. -/
def keyState : State :=
  { call 64 6 0x2000 4 with
    mem := [(0x2000, 0xAA), (0x2001, 0xBB), (0x2002, 0xCC), (0x2003, 0xDD)]
    preimageOffset := 9 }

/-- Example of R281. -/
theorem test_preimage_key :
    (match runWord 0x73 keyState with
      | .next s => some (s.preimageKey, s.preimageOffset, getReg s 10)
      | .fault _ => none
      | .refused _ => none) = some (0xAABBCCDD, 0, 4) := by decide

/-- A state about to read fd 5 at 0x201E, with one answer of the oracle for key 0 and offset 3. -/
def oracleState (a : OracleAnswer) : State :=
  { call 63 5 0x201E 8 with preimageOffset := 3, oracleTable := [{ key := 0, offset := 3, answer := a }] }

/-- R282: cut at the end of the leaf; end of the pre-image; oracle error; a length above 32. -/
theorem test_preimage_value :
    (match runWord 0x73 (oracleState (.data (0x1122334455 <<< 216 : BitVec 256) 5)) with
      | .next s => some (getReg s 10, s.preimageOffset, doubleAt s 0x201E)
      | .fault _ => none
      | .refused _ => none) = some (2, 5, 0x2211) ∧
      regAfter (runWord 0x73 (oracleState (.data (0x1122334455 <<< 216 : BitVec 256) 0))) 10 = some 0 ∧
      faultOf (runWord 0x73 (oracleState .error)) = some .badProof ∧
      refusalOf (runWord 0x73 (oracleState (.data (0x1122334455 <<< 216 : BitVec 256) 33))) = some .oracleLength := by decide

/-- Scenario S1 through `withFetchWord`: the very first step after reset runs the word. -/
theorem test_first_step :
    pcAfter (step (State.reset.withFetchWord 32 0x00500093)) = some 4 ∧
      regAfter (step (State.reset.withFetchWord 32 0x00500093)) 1 = some 5 ∧
      faultOf (step State.reset) = some .unknownOpcode ∧
      refusalOf (step { State.reset with pc := 30 }) = some .noProofProvided := by decide

/-- The record after scenario S1 hashes to what 95_test_vectors.md prints (R20, R44, R62). -/
theorem test_state_hash_s1 :
    keccak256 (Record.toBytes
      { State.reset.toRecord with
        memRoot := 0x50dd7177a3fae36119bcf51e14db0c1b9edf35920425661f47fc4be82ca33934#256
        pc := 4
        regs := writeReg State.reset.regs 1 5 }) =
      0xe77d6101699a4ebf17d2d7b97613437c14d73f803320e070c7c4abbf13bf003a#256 := by decide +kernel

/-- Z1 of 95_test_vectors.md section 3.2: the node over two zero leaves. -/
theorem test_hash_pair_zero :
    hashPair 0 0 = 0xad3228b676f7d3cd4284a5443f17f1962b36e491b30a40b2405849e597ba5fb5#256 := by decide +kernel

/-- Z59 of 95_test_vectors.md section 3.2 is the root of the all-zero memory. -/
theorem test_zero_memory_root : (zeroNodes 59).headD 0 = zeroMemoryRoot := by decide +kernel

/-! ### Witnesses: for every statement with hypotheses, a state and operands that meet them -/

/-- The fixture with one instruction word at pc 0, committed. -/
def ready (w : Nat) : State := State.reset.withFetchWord 32 w

theorem ready_inv (w : Nat) : Inv (ready w) := by
  refine ⟨⟨?_, .inl rfl⟩, store_wf _ _ _ _ wf_nil, rfl, rfl⟩
  simp [ready, State.withFetchWord, placeWord]

/-- StepKeepsInv. -/
theorem witness_step_keeps_inv : ∃ s s', Inv s ∧ step s = .next s' :=
  let ⟨s', h⟩ := next_of_isNext (r := step (ready 0x00500093)) (by decide)
  ⟨_, s', ready_inv _, h⟩

/-- StepKeepsWellFormed, StateHashGoesOut, WhoWritesWhat: a step completes from a well-formed record and a canonical
memory, not exited and exited. -/
theorem witness_step_keeps_well_formed :
    (∃ s s1 s', deliverInput s = .next s1 ∧ WellFormedRecord s1.toRecord ∧ s.mem.wf ∧ s1.exited = 0 ∧
      step s = .next s') ∧
    ∃ s s1 s', deliverInput s = .next s1 ∧ WellFormedRecord s1.toRecord ∧ s1.exited = 1 ∧ step s = .next s' := by
  obtain ⟨s', h⟩ := next_of_isNext (r := step (ready 0x00500093)) (by decide)
  obtain ⟨t', h'⟩ := next_of_isNext (r := step { State.reset with exited := 1 }) (by decide)
  exact ⟨⟨_, _, s', rfl, (ready_inv _).1, (ready_inv _).2.1, rfl, h⟩, _, _, t', rfl, ⟨by decide, .inr rfl⟩, rfl, h'⟩

/-- RegisterFile. -/
theorem witness_register_file : (1 : Reg) ≠ 0 ∧ (2 : Reg) ≠ 1 := by decide

/-- CalldataDelivers: nothing prepared, before the first hash and after it; 365 and 366 bytes. -/
theorem witness_calldata_delivers :
    (State.reset.inputs = [] ∧ State.reset.stateHash = none) ∧
      (∃ s : State, ∃ h, s.inputs = [] ∧ s.stateHash = some h) ∧
      (∃ s : State, ∃ calldata rest, s.inputs = calldata :: rest ∧ calldata.length < 366) ∧
      ∃ s : State, ∃ calldata rest, s.inputs = calldata :: rest ∧ 366 ≤ calldata.length :=
  ⟨⟨rfl, rfl⟩, ⟨{ State.reset with stateHash := some 7 }, 7, rfl, rfl⟩,
    ⟨{ State.reset with inputs := [List.replicate 365 0] }, _, _, rfl, by rw [List.length_replicate]; decide⟩,
    { State.reset with inputs := [List.replicate 366 0] }, _, _, rfl, by rw [List.length_replicate]⟩

/-- SelectorIsNotRead. -/
theorem witness_selector :
    ([1, 2, 3, 4, 5] : List Byte).drop 4 = ([9, 9, 9, 9, 5] : List Byte).drop 4 := rfl

/-- ExitedShortCircuit, also with an x0 slot that is not zero. -/
theorem witness_exited_short_circuit :
    ∃ s s1, deliverInput s = .next s1 ∧ s1.exited = 1 ∧ s1.regs[0] ≠ 0 :=
  ⟨{ State.reset with exited := 1, regs := State.reset.regs.set 0 7 }, _, rfl, rfl, by decide⟩

/-! Calldata whose proof blocks are all zero bytes: with `memRoot` zero no read of leaf 0 verifies. -/

/-- A state whose next calldata is `n` zero bytes. -/
def zeroInput (n : Nat) : State := { State.reset with root := .digest 0, inputs := [List.replicate n 0] }

theorem bytes32At_zero (n k : Nat) : bytes32At (List.replicate n 0) k = 0 := by
  rw [bytes32At]
  refine Eq.trans (bytes32Of_congr _ (fun _ => 0) fun j _ => ?_) (by decide)
  rw [List.getD_eq_getElem?_getD, List.getElem?_replicate]
  split <;> rfl

theorem zero_block (n p : Nat) (hp : p ≠ noProof) (h : blockStart p + 32 * 60 ≤ n) :
    proofBlock (List.replicate n 0) p = .next (0, List.replicate 59 0) := by
  rw [proofBlock, if_neg hp, if_neg (by simp only [List.length_replicate]; omega), bytes32At_zero]
  simp only [bytes32At_zero]
  rfl

/-- 59 hashes of zero siblings over a zero leaf are not zero. -/
theorem zero_fold : foldRoot 0 (List.replicate 59 0) 0 ≠ 0 := by decide +kernel

theorem zero_leaf_read_reverts (p : Nat) (hp : p < 3) : getMemoryB32 (zeroInput 9000) 0 p = .fault .badProof := by
  have hb := zero_block 9000 p (by simp only [noProof]; omega) (by simp only [blockStart]; omega)
  have hin : (zeroInput 9000).inputs = [List.replicate 9000 0] := rfl
  rw [getMemoryB32, if_neg (by decide)]
  simp only [hin, hb, andThen_next]
  exact if_neg zero_fold

/-- With `memRoot` the fold of the same zeros the read of leaf 0 verifies. -/
theorem zero_leaf_read_verifies (s : State) (hi : s.inputs = [List.replicate 9000 0])
    (hr : s.root = .digest (foldRoot 0 (List.replicate 59 0) 0)) : getMemoryB32 s 0 1 = .next 0 := by
  have hb := zero_block 9000 1 (by decide) (by simp only [blockStart]; omega)
  rw [getMemoryB32, if_neg (by decide)]
  simp only [hi, hb, andThen_next]
  exact if_pos (memRoot_digest hr).symm

theorem zero_load_reverts (size : Nat) (signed : Bool) (p : Nat) (hp : p < 3) :
    loadMem (zeroInput 9000) 0 size signed p 2 = .fault .badProof := by
  rw [loadMem, show leafBase 0 = 0 from rfl, zero_leaf_read_reverts p hp]
  rfl

theorem zero_store_reverts : storeMem (zeroInput 9000) 0 8 5 1 2 = .fault .badProof := by
  simp only [storeMem, patchMemory, show leafBase 0 = 0 from rfl, zero_leaf_read_reverts 1 (by omega), andThen_fault]

theorem ofBytes_zero (n : Nat) : Record.ofBytes (List.replicate n 0) =
    { State.reset.toRecord with memRoot := 0 } := by
  have hw : ∀ k, wordAt (List.replicate n 0) k = 0 := by
    intro k
    rw [wordAt]
    refine Eq.trans (congrArg _ (leValue_congr _ _ (fun _ => 0) fun j _ => ?_)) (by decide)
    rw [List.getD_eq_getElem?_getD, List.getElem?_replicate]
    split <;> rfl
  have hb : ∀ k, (List.replicate n (0 : Byte)).getD k 0 = 0 := by
    intro k
    rw [List.getD_eq_getElem?_getD, List.getElem?_replicate]
    split <;> rfl
  simp only [Record.ofBytes, bytes32At_zero, hw, hb, State.reset]
  congr 1

theorem zero_input_delivers : deliverInput (zeroInput 9000) = .next (zeroInput 9000) := by
  simp only [deliverInput, zeroInput, List.length_replicate, List.drop_replicate, ofBytes_zero, recordSize]
  rfl

theorem zero_fetch_reverts : fetch (zeroInput 9000) = .fault .badProof := by
  rw [fetch, show (zeroInput 9000).pc = 0 from rfl, loadMem, show leafBase 0 = 0 from rfl,
    zero_leaf_read_reverts 0 (by omega)]
  rfl

/-- StepStopsBeforeExecuting, clause by clause. -/
theorem witness_step_stops :
    (∃ s s1, deliverInput s = .next s1 ∧ s1.exited ≠ 1 ∧ s1.exited ≠ 0) ∧
    (∃ s s1, deliverInput s = .next s1 ∧ s1.exited ≠ 1 ∧ s1.regs[0] ≠ 0) ∧
    (∃ s s1 e, deliverInput s = .next s1 ∧ s1.exited ≠ 1 ∧ s1.exited = 0 ∧ s1.regs[0] = 0 ∧ fetch s1 = .fault e) ∧
    ∃ s s1 r, deliverInput s = .next s1 ∧ s1.exited ≠ 1 ∧ s1.exited = 0 ∧ s1.regs[0] = 0 ∧ fetch s1 = .refused r :=
  ⟨⟨{ State.reset with exited := 2 }, _, rfl, by decide, by decide⟩,
    ⟨{ State.reset with regs := State.reset.regs.set 0 7 }, _, rfl, by decide, by decide⟩,
    ⟨zeroInput 9000, _, _, zero_input_delivers, by decide, rfl, by decide, zero_fetch_reverts⟩,
    { State.reset with pc := 30 }, _, _, rfl, by decide, rfl, by decide,
    refused_of_refusalOf (e := .noProofProvided) (by decide)⟩

/-- MemoryBytesAfterStore: a store that wraps past 2^64. -/
theorem witness_memory_bytes :
    8 ≤ 2 ^ 64 ∧ Outside 6 0xFFFFFFFFFFFFFFFE 8 ∧ byteAddress 0xFFFFFFFFFFFFFFFE 7 = 5 ∧ Memory.wf [] := by
  refine ⟨by decide, ?_, by decide, wf_nil⟩
  intro j hj
  have : ∀ k < 8, (6 : Nat) ≠ byteAddress 0xFFFFFFFFFFFFFFFE k := by decide
  exact this j hj

/-- A record whose root commits to no memory that the host has: 0 in place of the root of the all-zero memory. -/
def wrongRoot : State := { State.reset with root := .digest 0 }

/-- Z59 is not 0. -/
theorem wrong_root : wrongRoot.memRoot ≠ merkleRoot wrongRoot.mem := by
  have h : merkleRoot [] = zeroMemoryRoot := by
    rw [merkleRoot_eq]
    exact (merkleNode_of_untouched [] 59 0 rfl).trans test_zero_memory_root
  show (0 : Bytes32) ≠ merkleRoot []
  rw [h]
  decide

/-- LeafPrimitives: nothing prepared, over the root of the memory and over another; with calldata, an unaligned address,
index 0xFF, a block that is missing, and one that is there, to the byte. -/
theorem witness_leaf_primitives :
    (State.reset.inputs = [] ∧ State.reset.memRoot = merkleRoot State.reset.mem) ∧
      (wrongRoot.inputs = [] ∧ wrongRoot.memRoot ≠ merkleRoot wrongRoot.mem) ∧
      (zeroInput 9000).inputs = [List.replicate 9000 0] ∧ (1 : Word) &&& 31 ≠ 0 ∧ (32 : Word) &&& 31 = 0 ∧
      (1 : Nat) ≠ 0xFF ∧ (List.replicate 4333 (0 : Byte)).length < 366 + 2048 * 1 + 32 * 60 ∧
      366 + 2048 * 1 + 32 * 60 ≤ (List.replicate 4334 (0 : Byte)).length := by
  refine ⟨⟨rfl, rfl⟩, ⟨rfl, wrong_root⟩, rfl, by decide, by decide, by decide, ?_, ?_⟩ <;> simp only [List.length_replicate] <;> omega

/-- HonestProofFolds: the first and the last leaf, and a memory that differs in the last leaf only. -/
theorem witness_honest_proof_folds :
    0 < 2 ^ 59 ∧ 2 ^ 59 - 1 < 2 ^ 59 ∧
      ∀ a, a / 32 ≠ 2 ^ 59 - 1 → Memory.read [(2 ^ 64 - 1, 7)] a = Memory.read [] a := by
  refine ⟨by decide, by decide, fun a ha => ?_⟩
  exact if_neg (show ¬a = 2 ^ 64 - 1 by omega)

/-- HonestLiteralAccess: four bytes at 30, over leaves 0 and 1, with a left block for the memory at the start and a
right block for the memory after the left patch (for the load: for the memory at the start). -/
theorem witness_honest_literal_access (m : Memory) :
    ∃ (s : State) (calldata : List Byte) (rest : List (List Byte)), s.inputs = calldata :: rest ∧ Committed s ∧
      HonestBlock calldata 1 s.mem 30 ∧ 32 < (30 : Word).toNat % 32 + 4 ∧
      HonestBlock calldata 2 m (30 + (BitVec.ofNat 64 4 - 1)) := by
  have hs : ∀ (m : Memory) (j : Nat), (honestSiblings m j).length = 59 := fun m j => by
    simp [honestSiblings, merkleDepth]
  have hl : ∀ (m : Memory) (j : Nat), (proofBytes (leafAt m j) (honestSiblings m j)).length = 2048 := fun m j =>
    length_proofBytes _ _ (by rw [hs]; omega)
  refine ⟨{ ready 0x00500093 with inputs := [List.replicate 2414 0 ++ (proofBytes (leafAt (ready 0x00500093).mem 0)
    (honestSiblings (ready 0x00500093).mem 0) ++ (proofBytes (leafAt m 1) (honestSiblings m 1) ++ []))] },
    _, _, rfl, rfl, ?_, by decide, ?_⟩
  · exact proofBlock_append _ _ _ _ 1 (by decide) (by rw [List.length_replicate]; rfl) (hs _ _)
  · rw [HonestBlock, ← List.append_assoc]
    exact proofBlock_append _ _ _ _ 2 (by decide)
      (by rw [List.length_append, hl, List.length_replicate]; rfl) (hs _ _)

/-- With nothing prepared and the root kept as that of the memory, the host is honest. -/
theorem honest_of_ofMemory {s : State} (hi : s.inputs = []) (hr : s.root = .ofMemory) : HonestHost s :=
  ⟨hi, memRoot_ofMemory hr⟩

theorem reset_honest : HonestHost State.reset := honest_of_ofMemory rfl rfl

/-- StoreThenLoad. -/
theorem witness_store_then_load : ∃ s s', HonestHost s ∧ storeMem s 0x101D 8 5 1 2 = .next s' :=
  ⟨State.reset, _, reset_honest, storeMem_honest _ _ 8 5 1 2 rfl rfl (by omega) (by omega) (by decide) (by decide)⟩

/-- FetchReadsMemory: at pc 28, the last that fits, and at 29, the first that crosses. -/
theorem witness_fetch :
    HonestHost State.reset ∧ (28 : Word).toNat % 32 ≤ 28 ∧ 28 < (29 : Word).toNat % 32 := ⟨reset_honest, by decide, by decide⟩

theorem ready_word : wordAtAddr (ready 0x00500093) (ready 0x00500093).pc = encode (.addi 1 0 5) := by decide

/-- StepRunsDecodedInstruction, both clauses. -/
theorem witness_step_runs : ∃ s s1 w i, HonestHost s ∧ deliverInput s = .next s1 ∧ s1.exited = 0 ∧ s1.regs[0] = 0 ∧
    fetch s1 = .next w ∧ s1.pc.toNat % 32 ≤ 28 ∧ WellFormed i = true ∧ wordAtAddr s1 s1.pc = encode i := by
  obtain ⟨w, hw⟩ := next_of_isNext (r := fetch (ready 0x00500093)) (by decide)
  exact ⟨ready 0x00500093, _, w, .addi 1 0 5, (ready_inv _).2.2, rfl, rfl, (ready_inv _).1.1, hw, by decide, rfl, ready_word⟩

/-- DecodeEncode. -/
theorem witness_decode_encode : WellFormed (.bne 5 0 0x1FF8) = true ∧ WellFormed (.rsvAmoOp 5 2 1 2 3 0 1) = true := by
  decide

/-- UnknownOpcodeReverts: 0x7F is no handled opcode, 0x73 is one. -/
theorem witness_unknown_opcode :
    (0xFFFFFFFF : BitVec 32).extractLsb' 0 7 ∉ handledOpcodes ∧ (0x73 : BitVec 32).extractLsb' 0 7 ∈ handledOpcodes := by
  decide

/-- ReservedWordsRefused, SubDecodeReverts: boundary values of every clause. -/
theorem witness_reserved_words :
    (4 : BitVec 3) ∈ ([4, 5, 6, 7] : List (BitVec 3)) ∧ (7 : BitVec 3) ∈ ([4, 5, 6, 7] : List (BitVec 3)) ∧
      (2 : BitVec 3) ∈ ([2, 3] : List (BitVec 3)) ∧ (1 : BitVec 6) ≠ 0 ∧ (0x11 : BitVec 6) ≠ 0 ∧
      (0x11 : BitVec 6) ≠ 0x10 ∧ (2 : BitVec 7) ≠ 0 ∧ (2 : BitVec 7) ≠ 1 ∧ (2 : BitVec 7) ≠ 0x20 ∧
      (1 : BitVec 3) ≠ 0 ∧ (1 : BitVec 3) ≠ 5 ∧ (2 : BitVec 3) ∉ ([0, 1, 5] : List (BitVec 3)) ∧
      (1 : BitVec 3) ∉ ([0, 5] : List (BitVec 3)) ∧ (3 : BitVec 3) ∈ ([1, 2, 3] : List (BitVec 3)) ∧
      (1 : BitVec 3) ∈ ([0, 1] : List (BitVec 3)) ∧ (5 : BitVec 5) ∉ amoOps ∧ (0x1F : BitVec 5) ∉ amoOps := by decide

/-- RevertsHaveTheirCauses: each cause is met. -/
theorem witness_reverts :
    exec (.ecall 0 0) (oracleState .error) = .fault .badProof ∧
      exec (.rsvSystem4 0 0 0) State.reset = .fault .invalidCsrMode ∧
      exec (.rsvAmoSize 0 0 0 0 0 0 0) State.reset = .fault .invalidAmoSize ∧
      exec (.rsvAmoOp 5 2 0 0 0 0 0) State.reset = .fault .unknownAmoOp ∧
      exec (.rsvUnknown 0) State.reset = .fault .unknownOpcode ∧
      exec (.ecall 0 0) State.reset = .fault .unknownSyscall ∧
      exec (.ecall 0 0) (call 163 0 0 0) = .fault .unknownRlimit :=
  ⟨fault_of_faultOf (by decide), rfl, rfl, rfl, rfl, fault_of_faultOf (by decide), fault_of_faultOf (by decide)⟩

/-- HonestHostNeverBadProof: an oracle error at a read on fd 5 that the step fetches; a root that is not that of the
memory. -/
theorem witness_honest_bad_proof :
    (∃ s, HonestHost s ∧ step s = .fault .badProof) ∧
      ∃ s s1, s.inputs = [] ∧ ¬Committed s ∧ deliverInput s = .next s1 ∧ s1.exited = 0 ∧ s1.regs[0] = 0 :=
  ⟨⟨{ (oracleState .error).withFetchWord 32 0x73 with stateHash := none }, honest_of_ofMemory rfl rfl, fault_of_faultOf (by decide)⟩,
    wrongRoot, _, rfl, wrong_root, rfl, rfl, by decide⟩

/-- WhoWritesWhat: an instruction that stores and one that does not, and an address outside the bytes stored. -/
theorem witness_who_writes_what :
    (∃ s', exec (.addi 1 0 5) State.reset = .next s') ∧ storeTarget (.addi 1 0 5) State.reset = none ∧
      destination (.addi 1 0 5) ≠ some 2 ∧ (∃ s', exec (.sd 0 1 8) State.reset = .next s') ∧
      storeTarget (.sd 0 1 8) State.reset = some (8, 8) ∧ Outside 16 8 8 ∧ Outside 7 8 8 ∧
      isReservationOp (.sd 0 1 8) = false ∧ isEcall (.sd 0 1 8) = false := by
  refine ⟨⟨_, rfl⟩, rfl, by decide, next_of_isNext (by decide), by decide, ?_, ?_, rfl, rfl⟩
  · intro j hj
    have : ∀ k < 8, (16 : Nat) ≠ byteAddress 8 k := by decide
    exact this j hj
  · intro j hj
    have : ∀ k < 8, (7 : Nat) ≠ byteAddress 8 k := by decide
    exact this j hj

/-- EcallFrame: calls that complete, one for each set of clauses. -/
theorem witness_ecall_frame :
    (∃ s', exec (.ecall 0 0) (call 214 0 0 0) = .next s') ∧ (∃ s', exec (.ecall 0 0) (call 113 0 8 0) = .next s') ∧
      (∃ s', exec (.ecall 0 0) (call 63 0 8 3) = .next s') ∧ getReg (call 214 0 0 0) 17 = 214 ∧
      getReg (call 113 0 8 0) 17 = 113 ∧ getReg (call 63 0 8 3) 17 = 63 :=
  ⟨next_of_isNext (by decide), next_of_isNext (by decide), next_of_isNext (by decide), by decide, by decide, by decide⟩

/-- PcAdvances, both clauses. -/
theorem witness_pc_advances :
    (∃ s', exec (.addi 1 0 5) State.reset = .next s') ∧ isControlTransfer (.addi 1 0 5) = false ∧
      isEcall (.addi 1 0 5) = false ∧ (∃ s', exec (.ecall 0 0) (call 93 1 0 0) = .next s') ∧
      isControlTransfer (.ecall 0 0) = false ∧ isEcall (.ecall 0 0) = true ∧ getReg (call 93 1 0 0) 17 = 93 :=
  ⟨⟨_, rfl⟩, rfl, rfl, next_of_isNext (by decide), rfl, rfl, by decide⟩

/-- OracleOnlyInRead. -/
theorem witness_oracle_only : ¬(isEcall (.ecall 0 0) = true ∧ getReg (call 64 6 0 0) 17 = 63 ∧
    getReg (call 64 6 0 0) 10 = 5) := by decide

/-- LoadsUseVerifiedReads and StoresUseVerifiedWrites: an access that reverts; the operand equations hold of any
state. -/
theorem witness_accesses_revert :
    (∃ (s : State) (e : Fault), loadMem s 0 8 true 1 2 = .fault e) ∧
      ∃ (s : State) (e : Fault), storeMem s 0 8 5 1 2 = .fault e :=
  ⟨⟨_, _, zero_load_reverts 8 true 1 (by omega)⟩, _, _, zero_store_reverts⟩

/-- LoadsReadMemory, StoresWriteMemory, LoadReserved, AtomicWords, AtomicDoublewords: an honest host, and an address
at the top of the address space. -/
theorem witness_honest_access :
    HonestHost (start 0 [(7, 0xFFFFFFFFFFFFFFFD)] []) ∧
      (0xFFFFFFFFFFFFFFFD : Word) = getReg (start 0 [(7, 0xFFFFFFFFFFFFFFFD)] []) 7 + (0 : BitVec 12).signExtend 64 :=
  ⟨honest_of_ofMemory rfl rfl, by decide⟩

/-- Branches, OpImm, OpImm32, RegisterOps, RegisterOps32, Multiply, Divide, WordMultiplyDivide, AtomicsUseVerifiedAccesses:
their hypotheses only name the operands. -/
theorem witness_operand_names (s : State) (rs1 rs2 : Reg) (imm : BitVec 12) :
    (∃ target, target = s.pc + (imm ++ 0#1).signExtend 64) ∧ (∃ a b : Word, a = getReg s rs1 ∧ b = getReg s rs2) ∧
      (∃ b : Word, b = imm.signExtend 64) ∧
      ∃ a b : BitVec 32, a = (getReg s rs1).setWidth 32 ∧ b = (getReg s rs2).setWidth 32 :=
  ⟨⟨_, rfl⟩, ⟨_, _, rfl, rfl⟩, ⟨_, rfl⟩, _, _, rfl, rfl⟩

/-- SystemNoOps, FencesAndFloatingPoint. -/
theorem witness_no_ops : (2 : BitVec 12) ≠ 0 ∧ (2 : BitVec 12) ≠ 1 ∧ (7 : BitVec 3) ≠ 0 ∧ (7 : BitVec 3) ≠ 1 := by
  decide

/-- SyscallExit, SyscallsWithoutMemory, SyscallDescriptors, UnknownSyscallReverts: every clause is met. -/
theorem witness_syscalls :
    getReg (call 93 0 0 0) 17 = 93 ∧ getReg (call 94 0 0 0) 17 = 94 ∧ getReg (call 214 0 0 0) 17 = 214 ∧
      (getReg (call 222 1 0 0) 17 = 222 ∧ getReg (call 222 1 0 0) 10 ≠ 0) ∧
      (getReg (call 222 0 1 0) 17 = 222 ∧ getReg (call 222 0 1 0) 10 = 0) ∧
      (getReg (call 25 5 3 0) 11 = 3 ∧ getReg (call 25 5 3 0) 10 ∈ ([0, 3, 5] : List Word)) ∧
      getReg (call 25 6 3 0) 10 ∈ ([1, 2, 4, 6] : List Word) ∧
      getReg (call 25 7 3 0) 10 ∉ ([0, 1, 2, 3, 4, 5, 6] : List Word) ∧ getReg (call 25 0 4 0) 11 ≠ 3 ∧
      getReg (call 56 0 0 0) 17 = 56 ∧ getReg (call 178 0 0 0) 17 ∈ ([123, 134, 135, 132, 178] : List Word) ∧
      (getReg (call 63 0 0 0) 17 = 63 ∧ getReg (call 63 0 0 0) 10 = 0) ∧ getReg (call 63 3 0 0) 10 = 3 ∧
      getReg (call 63 1 0 0) 10 ∉ ([0, 3, 5] : List Word) ∧
      (getReg (call 64 4 0 0) 17 = 64 ∧ getReg (call 64 4 0 0) 10 ∈ ([1, 2, 4] : List Word)) ∧
      getReg (call 64 0 0 0) 10 ∉ ([1, 2, 4, 6] : List Word) ∧
      getReg (call 57 0 0 0) 17 ∉
        ([25, 56, 63, 64, 93, 94, 113, 123, 132, 134, 135, 163, 178, 214, 222] : List Word) := by decide

/-- SyscallsThatStore. -/
theorem witness_syscalls_that_store :
    getReg (call 113 0 8 0) 17 = 113 ∧ HonestHost (call 113 0 8 0) ∧ getReg (call 163 7 8 0) 17 = 163 ∧
      getReg (call 163 7 8 0) 10 = 7 ∧ HonestHost (call 163 7 8 0) ∧ getReg (call 163 6 8 0) 10 ≠ 7 :=
  ⟨by decide, honest_of_ofMemory rfl rfl, by decide, by decide, honest_of_ofMemory rfl rfl, by decide⟩

/-- PreimageKeyWrite: an honest host, whose leaf read completes, a bad proof, and calldata without the block. -/
theorem witness_preimage_key_write :
    getReg keyState 17 = 64 ∧ getReg keyState 10 = 6 ∧ HonestHost keyState ∧
      (∃ leaf, getMemoryB32 keyState (getReg keyState 11 &&& ~~~31#64) 1 = .next leaf) ∧
      (∃ s e, getReg s 17 = 64 ∧ getReg s 10 = 6 ∧ getMemoryB32 s (getReg s 11 &&& ~~~31#64) 1 = .fault e) ∧
      ∃ s r, getReg s 17 = 64 ∧ getReg s 10 = 6 ∧ getMemoryB32 s (getReg s 11 &&& ~~~31#64) 1 = .refused r := by
  refine ⟨by decide, by decide, honest_of_ofMemory rfl rfl, next_of_isNext (by decide),
    ⟨{ zeroInput 9000 with regs := (call 64 6 0 4).regs }, .badProof, by decide, by decide, ?_⟩,
    { zeroInput 0 with regs := (call 64 6 0 4).regs }, .missingProof, by decide, by decide, rfl⟩
  rw [← zero_leaf_read_reverts 1 (by omega)]
  rfl

/-- A state about to read fd 5 at address 0, with `n` zero bytes of calldata and an oracle answer of 32 bytes. -/
def reading (root : RootSource) (n : Nat) : State :=
  { call 63 5 0 4 with
    root := root
    inputs := [List.replicate n 0]
    oracleTable := [{ key := 0, offset := 0, answer := .data 7 32 }] }

/-- PreimageValueRead: an error, and answers of length 33, 0 and 32; with calldata, a block 1 that fails, one that
verifies and none; a tabled entry. -/
theorem witness_preimage_value_read :
    (∀ a, getReg (oracleState a) 17 = 63 ∧ getReg (oracleState a) 10 = 5 ∧ HonestHost (oracleState a) ∧
      oracleRead (oracleState a) (oracleState a).preimageKey (oracleState a).preimageOffset = a) ∧
    (32 < (33 : Byte).toNat ∧ 0 < (32 : Byte).toNat ∧ (32 : Byte).toNat ≤ 32) ∧
    (∃ s e, getReg s 17 = 63 ∧ getReg s 10 = 5 ∧
      oracleRead s s.preimageKey s.preimageOffset = .data 7 32 ∧
      getMemoryB32 s (getReg s 11 &&& ~~~31#64) 1 = .fault e) ∧
    (∃ s leaf, getReg s 17 = 63 ∧ getReg s 10 = 5 ∧
      oracleRead s s.preimageKey s.preimageOffset = .data 7 32 ∧ s.inputs ≠ [] ∧
      getMemoryB32 s (getReg s 11 &&& ~~~31#64) 1 = .next leaf) ∧
    (∃ s r, getReg s 17 = 63 ∧ getReg s 10 = 5 ∧
      oracleRead s s.preimageKey s.preimageOffset = .data 7 32 ∧
      getMemoryB32 s (getReg s 11 &&& ~~~31#64) 1 = .refused r) ∧
    ∃ e ∈ (oracleState .error).oracleTable, e.key = (oracleState .error).preimageKey ∧
      e.offset = (oracleState .error).preimageOffset := by
  have hr : ∀ s : State, getReg s 11 = 0 → getReg s 11 &&& ~~~31#64 = 0 := fun s h => by rw [h]; decide
  refine ⟨fun a => ⟨rfl, rfl, honest_of_ofMemory rfl rfl, rfl⟩, by decide,
    ⟨reading (.digest 0) 9000, .badProof, rfl, rfl, rfl, ?_⟩,
    ⟨reading (.digest (foldRoot 0 (List.replicate 59 0) 0)) 9000, 0, rfl, rfl, rfl, List.cons_ne_nil _ _, ?_⟩,
    ⟨reading .ofMemory 0, .missingProof, rfl, rfl, rfl, rfl⟩, _, List.mem_singleton.mpr rfl, rfl, rfl⟩
  · rw [hr _ rfl, ← zero_leaf_read_reverts 1 (by omega)]
    rfl
  · rw [hr _ rfl]
    exact zero_leaf_read_verifies _ rfl rfl

/-- StoreConditional: success and failure, the address 0 with no reservation among them. -/
theorem witness_store_conditional :
    HonestHost State.reset ∧ getReg State.reset 7 = State.reset.loadReservation ∧
      getReg (start 0 [(7, 8)] []) 7 ≠ (start 0 [(7, 8)] []).loadReservation   :=
  ⟨reset_honest, by decide, by decide⟩

end Sys2Proof.Tests
end

/-! The statements of 10_state.md about the 362-byte record (R20), the exited short-circuit (R42) and the state hash
(R44). A field stands at an offset of the record when its bytes are a prefix of the record dropped to that offset;
`wordAt` and `bytes32At` then read the field back. -/

namespace Sys2Proof.Machine

/-! ### Fields of a byte string -/

@[simp] theorem length_leBytes (n v : Nat) : (leBytes n v).length = n := by simp [leBytes]

/-- Byte `j` of a field of `n` bytes that stands at `offset`. -/
theorem getD_of_field {bs : List Byte} {offset n j : Nat} {f : Nat → Byte}
    (h : (List.range n).map f <+: bs.drop offset) (hj : j < n) : bs.getD (offset + j) 0 = f j := by
  obtain ⟨post, hpost⟩ := h
  have hget : (bs.drop offset)[j]? = some (f j) := by
    rw [← hpost, List.getElem?_append_left (by simpa using hj)]
    simp [hj]
  rw [List.getD_eq_getElem?_getD, ← List.getElem?_drop, hget, Option.getD_some]

theorem wordAt_of_field {bs : List Byte} {offset : Nat} {w : Word} (h : leBytes 8 w.toNat <+: bs.drop offset) :
    wordAt bs offset = w := by
  have hbytes : leValue 8 (fun j => bs.getD (offset + j) 0) = leValue 8 (fun j => valueByte w.toNat (0 + j)) :=
    leValue_congr 8 _ _ fun j hj => by rw [getD_of_field h hj, Nat.zero_add]
  rw [wordAt, hbytes, leValue_valueByte, Nat.pow_zero, Nat.div_one]
  exact BitVec.eq_of_toNat_eq (by simp [w.isLt])

theorem bytes32At_of_field {bs : List Byte} {offset : Nat} {b : Bytes32} (h : bytes32List b <+: bs.drop offset) :
    bytes32At bs offset = b :=
  (bytes32Of_congr _ _ fun _ hj => getD_of_field h hj).trans (bytes32Of_byteOf b)

/-- Word `i` of a row of u64 fields stands `8*i` bytes into it. -/
theorem field_flatMap_leBytes (ws : List Word) (i : Nat) (h : i < ws.length) :
    leBytes 8 ws[i].toNat <+: (ws.flatMap fun v => leBytes 8 v.toNat).drop (8 * i) := by
  induction ws generalizing i with
  | nil => simp at h
  | cons w ws ih =>
    rw [List.flatMap_cons]
    cases i with
    | zero => exact List.prefix_append _ _
    | succ i =>
      rw [show 8 * (i + 1) = 8 + 8 * i by omega, ← List.drop_drop, List.drop_left' (length_leBytes 8 _)]
      exact ih i (by simpa using h)

/-! ### The record (R20)

Each field is found at its offset by dropping the fields before it, whose lengths are known. -/

theorem length_toBytes (r : Record) : r.toBytes.length = 362 := by simp [Record.toBytes, length_bytes32List]

@[simp] theorem toBytes_memRoot (r : Record) : bytes32At r.toBytes 0 = r.memRoot :=
  bytes32At_of_field (by simp [Record.toBytes])

@[simp] theorem toBytes_preimageKey (r : Record) : bytes32At r.toBytes 32 = r.preimageKey :=
  bytes32At_of_field (by simp [Record.toBytes, length_bytes32List])

@[simp] theorem toBytes_preimageOffset (r : Record) : wordAt r.toBytes 64 = r.preimageOffset :=
  wordAt_of_field (by simp [Record.toBytes, List.drop_append, length_bytes32List, List.drop_of_length_le])

@[simp] theorem toBytes_pc (r : Record) : wordAt r.toBytes 72 = r.pc :=
  wordAt_of_field (by simp [Record.toBytes, List.drop_append, length_bytes32List, List.drop_of_length_le])

@[simp] theorem toBytes_exitCode (r : Record) : r.toBytes[80]? = some r.exitCode := by
  simp [Record.toBytes, length_bytes32List]

@[simp] theorem toBytes_exited (r : Record) : r.toBytes[81]? = some r.exited := by
  simp [Record.toBytes, length_bytes32List]

@[simp] theorem toBytes_stepCounter (r : Record) : wordAt r.toBytes 82 = r.stepCounter :=
  wordAt_of_field (by simp [Record.toBytes, List.drop_append, length_bytes32List, List.drop_of_length_le])

@[simp] theorem toBytes_heap (r : Record) : wordAt r.toBytes 90 = r.heap :=
  wordAt_of_field (by simp [Record.toBytes, List.drop_append, length_bytes32List, List.drop_of_length_le])

@[simp] theorem toBytes_loadReservation (r : Record) : wordAt r.toBytes 98 = r.loadReservation :=
  wordAt_of_field (by simp [Record.toBytes, List.drop_append, length_bytes32List, List.drop_of_length_le])

/-- Register `i` stands at `106 + 8*i`: word `i` of the row of registers that starts at 106. -/
@[simp] theorem toBytes_reg (r : Record) (i : Nat) (h : i < 32) : wordAt r.toBytes (106 + 8 * i) = r.regs[i] := by
  have hrow : r.toBytes.drop 106 = r.regs.toList.flatMap fun v => leBytes 8 v.toNat := by
    simp [Record.toBytes, List.drop_append, length_bytes32List, List.drop_of_length_le]
  apply wordAt_of_field
  rw [← List.drop_drop, hrow]
  exact field_flatMap_leBytes r.regs.toList i (by simpa using h)

/-- The round trip: `ofBytes` reads each field at the offset where the lemmas above find it. -/
theorem ofBytes_toBytes (r : Record) : Record.ofBytes r.toBytes = r := by
  simp [Record.ofBytes, List.getD_eq_getElem?_getD]

/-- Settles O6: the offsets field by field, and the round trip through them. -/
theorem recordLayout : Obligations.RecordLayout := fun r =>
  ⟨length_toBytes r, toBytes_memRoot r, toBytes_preimageKey r, toBytes_preimageOffset r, toBytes_pc r,
    toBytes_exitCode r, toBytes_exited r, toBytes_stepCounter r, toBytes_heap r, toBytes_loadReservation r,
    toBytes_reg r, ofBytes_toBytes r⟩

/-! ### The end of a step (R42, R44) -/

/-- The output of a step touches no field of the record. -/
@[simp] theorem toRecord_deliverOutput (s : State) : (deliverOutput s).toRecord = s.toRecord := rfl

/-- The output uses up the calldata and puts out the hash of the 362 bytes, and nothing else. -/
theorem deliverOutput_eq (s : State) :
    deliverOutput s = { s with inputs := s.inputs.tail, stateHash := some (keccak256 s.toRecord.toBytes) } := by
  rw [deliverOutput, record_hash_eq]

/-- The short-circuit: an exited record goes straight to the output. -/
theorem step_of_exited {s s1 : State} (h1 : deliverInput s = .next s1) (he : s1.exited = 1) :
    step s = .next (deliverOutput s1) := by
  rw [step, h1, andThen_next, if_pos he]

/-- Every step that answers a next state ends with the output. -/
theorem step_next_deliverOutput {s s' : State} (h : step s = .next s') : ∃ t, s' = deliverOutput t := by
  obtain ⟨s1, _, ⟨_, rfl⟩ | ⟨_, _, _, s2, _, _, rfl⟩⟩ := step_next_cases h
  · exact ⟨s1, rfl⟩
  · exact ⟨s2, rfl⟩

/-- Settles O9: an exited record is put out as it came in. -/
theorem exitedShortCircuit : Obligations.ExitedShortCircuit := fun s s1 h1 he => by
  rw [step_of_exited h1 he, deliverOutput_eq]

/-- Settles O11: the output hashes the record, which it leaves as it is. -/
theorem stateHashGoesOut : Obligations.StateHashGoesOut := fun s s' h => by
  obtain ⟨t, rfl⟩ := step_next_deliverOutput h
  rw [deliverOutput_stateHash, record_hash_eq, toRecord_deliverOutput]

end Sys2Proof.Machine

/-! The default row of the opcode table (30_encoding.md R109): no decoder of a family answers `rsvUnknown`, so `decode`
answers it exactly where the opcode is none of the 17 handled ones. -/

namespace Sys2Proof

/-! ### No family answers the default row

`ite_eq_iff` reads an equation with a table of tests as one of its answers, and each answer is another constructor. -/

@[simp] theorem decodeLoad_ne_rsvUnknown (w v : BitVec 32) : decodeLoad w ≠ .rsvUnknown v := by
  simp [decodeLoad, ite_eq_iff]

@[simp] theorem decodeStore_ne_rsvUnknown (w v : BitVec 32) : decodeStore w ≠ .rsvUnknown v := by
  simp [decodeStore, ite_eq_iff]

@[simp] theorem decodeBranch_ne_rsvUnknown (w v : BitVec 32) : decodeBranch w ≠ .rsvUnknown v := by
  simp [decodeBranch, ite_eq_iff]

@[simp] theorem decodeOpImm_ne_rsvUnknown (w v : BitVec 32) : decodeOpImm w ≠ .rsvUnknown v := by
  simp [decodeOpImm, ite_eq_iff]

@[simp] theorem decodeOpImm32_ne_rsvUnknown (w v : BitVec 32) : decodeOpImm32 w ≠ .rsvUnknown v := by
  simp [decodeOpImm32, ite_eq_iff]

@[simp] theorem decodeOp_ne_rsvUnknown (w v : BitVec 32) : decodeOp w ≠ .rsvUnknown v := by
  simp [decodeOp, ite_eq_iff]

@[simp] theorem decodeOp32_ne_rsvUnknown (w v : BitVec 32) : decodeOp32 w ≠ .rsvUnknown v := by
  simp [decodeOp32, ite_eq_iff]

@[simp] theorem decodeSystem_ne_rsvUnknown (w v : BitVec 32) : decodeSystem w ≠ .rsvUnknown v := by
  simp [decodeSystem, ite_eq_iff]

@[simp] theorem decodeAmoW_ne_rsvUnknown (w v : BitVec 32) : decodeAmoW w ≠ .rsvUnknown v := by
  simp [decodeAmoW, ite_eq_iff]

@[simp] theorem decodeAmoD_ne_rsvUnknown (w v : BitVec 32) : decodeAmoD w ≠ .rsvUnknown v := by
  simp [decodeAmoD, ite_eq_iff]

@[simp] theorem decodeAmo_ne_rsvUnknown (w v : BitVec 32) : decodeAmo w ≠ .rsvUnknown v := by
  simp [decodeAmo, ite_eq_iff]

@[simp] theorem decodeMiscMem_ne_rsvUnknown (w v : BitVec 32) : decodeMiscMem w ≠ .rsvUnknown v := by
  simp [decodeMiscMem, ite_eq_iff]

/-! ### The default row (R109) -/

/-- Off the 17 handled opcodes each of the 17 tests of `decode` fails. -/
theorem decode_of_not_handled {w : BitVec 32} (h : opcodeOf w ∉ handledOpcodes) : decode w = .rsvUnknown w := by
  simp only [handledOpcodes, List.mem_cons, List.not_mem_nil, or_false, not_or] at h
  simp only [decode, h, if_false]

/-- Each handled opcode, in the order of the list, leads to a family or to a row of its own. -/
theorem decode_ne_rsvUnknown_of_handled {w : BitVec 32} (h : opcodeOf w ∈ handledOpcodes) (v : BitVec 32) :
    decode w ≠ .rsvUnknown v := by
  simp only [handledOpcodes, List.mem_cons, List.not_mem_nil, or_false] at h
  rcases h with h | h | h | h | h | h | h | h | h | h | h | h | h | h | h | h | h <;> simp [decode, h]

end Sys2Proof

namespace Sys2Proof.Machine

/-- The default row ends in the fatal revert in every state. -/
theorem exec_rsvUnknown (w : BitVec 32) (s : State) : exec (.rsvUnknown w) s = .fault .unknownOpcode := rfl

/-- Settles O23: `decode` answers the default row off `handledOpcodes`, the list of the statement, and only there. -/
theorem unknownOpcodeReverts : Obligations.UnknownOpcodeReverts := fun w s =>
  ⟨fun h => ⟨decode_of_not_handled h, exec_rsvUnknown w s⟩, decode_ne_rsvUnknown_of_handled, rfl⟩

end Sys2Proof.Machine

/-! The conditional branches (41_branches.md R160 to R166): a B-type word under opcode `0x63` decodes by its funct3, and
each branch is `branchIf` of its comparison. -/

namespace Sys2Proof

/-- An offset with bit 0 appended as 0 is even, so a B-type word holds all of it (R104). -/
@[simp] theorem immBOf_bType_append (imm : BitVec 12) (rs2 rs1 : Reg) (f3 : BitVec 3) (op : BitVec 7) :
    immBOf (bType (imm ++ 0#1) rs2 rs1 f3 op) = imm ++ 0#1 :=
  immBOf_bType _ rs2 rs1 f3 op (by rw [BitVec.getLsbD_append]; rfl)

/-- Opcode `0x63` leads to the branch table (R108). -/
@[simp] theorem decode_bType (imm : BitVec 13) (rs2 rs1 : Reg) (f3 : BitVec 3) :
    decode (bType imm rs2 rs1 f3 0x63#7) = decodeBranch (bType imm rs2 rs1 f3 0x63#7) := by
  simp [decode]

end Sys2Proof

namespace Sys2Proof.Machine

/-! ### The comparisons -/

theorem ltSigned_iff (a b : Word) : ltSigned a b = true ↔ a.toInt < b.toInt := decide_eq_true_iff

theorem ltUnsigned_iff (a b : Word) : ltUnsigned a b = true ↔ a.toNat < b.toNat := decide_eq_true_iff

theorem not_ltSigned_iff (a b : Word) : (!ltSigned a b) = true ↔ b.toInt ≤ a.toInt := by
  rw [Bool.not_eq_true', Bool.eq_false_iff, ne_eq, ltSigned_iff, not_lt]

theorem not_ltUnsigned_iff (a b : Word) : (!ltUnsigned a b) = true ↔ b.toNat ≤ a.toNat := by
  rw [Bool.not_eq_true', Bool.eq_false_iff, ne_eq, ltUnsigned_iff, not_lt]

/-! ### The branch rule (R160) -/

/-- `branchIf` changes the pc alone: to the target where `p`, the meaning of the test, holds, and to `pc + 4` where not. -/
theorem branchIf_eq {taken : Bool} {p : Prop} [Decidable p] (hp : taken = true ↔ p) (imm : BitVec 13) (s : State) :
    branchIf taken imm s = .next { s with pc := if p then s.pc + imm.signExtend 64 else s.pc + 4 } := by
  by_cases h : p
  · rw [branchIf, if_pos (hp.mpr h), if_pos h, setPc, immB]
  · rw [branchIf, if_neg (mt hp.mp h), if_neg h, advance, setPc]

/-- A word runs as a branch once it decodes to an instruction that is `branchIf` of a test. -/
theorem runs_of_branchIf {w : BitVec 32} {i : Instr} {s : State} {taken : Bool} {imm : BitVec 13} {p : Prop}
    [Decidable p] (hw : decode w = i) (hi : exec i s = branchIf taken imm s) (hp : taken = true ↔ p) :
    Runs w i s (.next { s with pc := if p then s.pc + imm.signExtend 64 else s.pc + 4 }) :=
  ⟨hw, hi.trans (branchIf_eq hp imm s)⟩

/-- Settles O37: each word is decoded through the branch table, and each comparison is read as the statement has it. -/
theorem branches : Obligations.Branches := by
  rintro rs1 rs2 imm s _ rfl
  refine ⟨?beq, ?bne, ?blt, ?bge, ?bltu, ?bgeu⟩
  case beq => exact runs_of_branchIf (by simp [decodeBranch]) rfl beq_iff_eq
  case bne => exact runs_of_branchIf (by simp [decodeBranch]) rfl bne_iff_ne
  case blt => exact runs_of_branchIf (by simp [decodeBranch]) rfl (ltSigned_iff _ _)
  case bge => exact runs_of_branchIf (by simp [decodeBranch]) rfl (not_ltSigned_iff _ _)
  case bltu => exact runs_of_branchIf (by simp [decodeBranch]) rfl (ltUnsigned_iff _ _)
  case bgeu => exact runs_of_branchIf (by simp [decodeBranch]) rfl (not_ltUnsigned_iff _ _)

end Sys2Proof.Machine

/-! The register-immediate instructions (42_int_imm.md R171 to R179, R181 to R184): each word decodes through the table of
its opcode, and each instruction writes its result back to rd. What is left is that the model's result is the number the
rule names. -/

namespace Sys2Proof

/-- Opcode `0x13` leads to the register-immediate table (R108). -/
theorem decode_eq_decodeOpImm {w : BitVec 32} (h : opcodeOf w = 0x13) : decode w = decodeOpImm w := by
  simp [decode, h]

/-- Opcode `0x1B` leads to the table of the 32-bit forms (R108). -/
theorem decode_eq_decodeOpImm32 {w : BitVec 32} (h : opcodeOf w = 0x1B) : decode w = decodeOpImm32 w := by
  simp [decode, h]

/-! ### Right shifts as divisions -/

/-- A logical right shift divides the unsigned number by a power of two, rounding down (R178, R183). -/
theorem ushiftRight_eq_ofNat_div {n : Nat} (x : BitVec n) (k : Nat) : x >>> k = BitVec.ofNat n (x.toNat / 2 ^ k) := by
  rw [← Nat.shiftRight_eq_div_pow, ← BitVec.toNat_ushiftRight, BitVec.ofNat_toNat, BitVec.setWidth_eq]

/-- An arithmetic right shift divides the signed number by a power of two, rounding down (R179, R184). -/
theorem toInt_sshiftRight_eq_div {n : Nat} (x : BitVec n) (k : Nat) : (x.sshiftRight k).toInt = x.toInt / 2 ^ k := by
  rw [BitVec.toInt_sshiftRight, Int.shiftRight_eq_div_pow, Nat.cast_pow, Nat.cast_ofNat]

theorem sshiftRight_eq_ofInt_div {n : Nat} (x : BitVec n) (k : Nat) :
    x.sshiftRight k = BitVec.ofInt n (x.toInt / 2 ^ k) := by
  rw [← toInt_sshiftRight_eq_div, BitVec.ofInt_toInt]

end Sys2Proof

namespace Sys2Proof.Machine

/-! ### Results -/

/-- The value of a comparison (R172), by the meaning `p` of the test. -/
theorem boolWord_eq_ite {b : Bool} {p : Prop} [Decidable p] (hp : b = true ↔ p) : boolWord b = if p then 1 else 0 :=
  if_congr hp rfl rfl

/-- Sign-extending keeps the signed number, so the W form of an arithmetic shift is the same division (R184). -/
theorem sext32_sshiftRight (x : BitVec 32) (k : Nat) :
    sext32 (x.sshiftRight k) = BitVec.ofInt 64 (x.toInt / 2 ^ k) := by
  rw [sext32, BitVec.signExtend, toInt_sshiftRight_eq_div]

/-- The low word of the sign-extended immediate is the immediate sign-extended to the low word. -/
theorem low32_immI (imm : BitVec 12) : low32 (immI imm) = imm.signExtend 32 := by
  rw [low32, immI, ← BitVec.signExtend_eq_setWidth_of_le _ (by decide), BitVec.signExtend,
    BitVec.toInt_signExtend_of_le (by decide), ← BitVec.signExtend]

/-- The low word of a sum depends on the low words alone (R181). -/
theorem low32_add (a b : Word) : low32 (a + b) = low32 a + low32 b := BitVec.setWidth_add a b (by decide)

/-! ### Writing a result back -/

/-- `writeBack` writes rd and the pc, and nothing else (R170, R180). -/
theorem writeBack_eq (rd : Reg) (v : Word) (s : State) : writeBack rd v s = .next (withRd s rd v) := rfl

/-- A word runs to `v` in rd once it decodes to an instruction that writes back a result equal to `v`. -/
theorem runs_of_writeBack {w : BitVec 32} {i : Instr} {s : State} {rd : Reg} {result v : Word} (hw : decode w = i)
    (hi : exec i s = writeBack rd result s) (hv : result = v) : Runs w i s (.next (withRd s rd v)) :=
  ⟨hw, by rw [hi, hv, writeBack_eq]⟩

/-- Settles O38: nine rows of the table, and the comparisons and right shifts read as the statement has them. -/
theorem opImm : Obligations.OpImm := by
  rintro rd rs1 imm sh s _ _ rfl rfl
  refine ⟨?addi, ?slti, ?sltiu, ?xori, ?ori, ?andi, ?slli, ?srli, ?srai⟩
  case addi | xori | ori | andi | slli => exact runs_of_writeBack (by simp [decode_eq_decodeOpImm, decodeOpImm]) rfl rfl
  case slti =>
    exact runs_of_writeBack (by simp [decode_eq_decodeOpImm, decodeOpImm]) rfl (boolWord_eq_ite (ltSigned_iff _ _))
  case sltiu =>
    exact runs_of_writeBack (by simp [decode_eq_decodeOpImm, decodeOpImm]) rfl (boolWord_eq_ite (ltUnsigned_iff _ _))
  case srli =>
    exact runs_of_writeBack (by simp [decode_eq_decodeOpImm, decodeOpImm]) rfl (ushiftRight_eq_ofNat_div _ _)
  case srai =>
    exact runs_of_writeBack (by simp [decode_eq_decodeOpImm, decodeOpImm]) rfl (sshiftRight_eq_ofInt_div _ _)

/-- Settles O39: four rows of the table; the sum and the right shifts are those of the low word. -/
theorem opImm32 : Obligations.OpImm32 := by
  rintro rd rs1 imm sh s _ rfl
  refine ⟨?addiw, ?slliw, ?srliw, ?sraiw⟩
  case addiw =>
    exact runs_of_writeBack (by simp [decode_eq_decodeOpImm32, decodeOpImm32]) rfl
      (by rw [low32_add, low32_immI, sext32, low32])
  case slliw => exact runs_of_writeBack (by simp [decode_eq_decodeOpImm32, decodeOpImm32]) rfl rfl
  case srliw =>
    exact runs_of_writeBack (by simp [decode_eq_decodeOpImm32, decodeOpImm32]) rfl
      (by rw [ushiftRight_eq_ofNat_div, sext32, low32])
  case sraiw =>
    exact runs_of_writeBack (by simp [decode_eq_decodeOpImm32, decodeOpImm32]) rfl (sext32_sshiftRight _ _)

end Sys2Proof.Machine

/-! The register-register instructions (43_int_reg.md R191 to R200, R202 to R206): each R-type word decodes through the
table of its opcode, and each instruction writes its result back to rd. What is left is the meaning of the comparisons
and of the shifts, whose amount is the low bits of `x[rs2]`. -/

namespace Sys2Proof

/-- Opcode `0x33` leads to the register-register table (R108). -/
@[simp] theorem decode_rType_op (f7 : BitVec 7) (rs2 rs1 : Reg) (f3 : BitVec 3) (rd : Reg) :
    decode (rType f7 rs2 rs1 f3 rd 0x33#7) = decodeOp (rType f7 rs2 rs1 f3 rd 0x33#7) := by
  simp [decode]

/-- Opcode `0x3B` leads to the table of the 32-bit forms (R108). -/
@[simp] theorem decode_rType_op32 (f7 : BitVec 7) (rs2 rs1 : Reg) (f3 : BitVec 3) (rd : Reg) :
    decode (rType f7 rs2 rs1 f3 rd 0x3B#7) = decodeOp32 (rType f7 rs2 rs1 f3 rd 0x3B#7) := by
  simp [decode]

end Sys2Proof

namespace Sys2Proof.Machine

/-! ### Shift amounts and low words -/

/-- The low six bits of the register are its value modulo 64 (R193). -/
theorem shiftAmount64_eq_mod (v : Word) : shiftAmount64 v = v.toNat % 64 := by
  rw [shiftAmount64, BitVec.extractLsb'_toNat, Nat.shiftRight_zero]

/-- The low five bits of the register are those of its low word, modulo 32 (R204). -/
theorem shiftAmount32_eq_mod (v : Word) : shiftAmount32 v = (low32 v).toNat % 32 := by
  rw [shiftAmount32, BitVec.extractLsb'_toNat, Nat.shiftRight_zero, low32, BitVec.toNat_setWidth,
    Nat.mod_mod_of_dvd _ (by decide)]

/-- The low word of a difference depends on the low words alone (R203). -/
theorem low32_sub (a b : Word) : low32 (a - b) = low32 a - low32 b :=
  BitVec.eq_sub_iff_add_eq.mpr (by rw [← low32_add, BitVec.sub_add_cancel])

/-! ### The 64-bit instructions (R191 to R200) -/

/-- Settles O40: ten rows of the table; the shifts are those by `x[rs2]` modulo 64, a right shift being a division. -/
theorem registerOps : Obligations.RegisterOps := by
  rintro rd rs1 rs2 s _ _ rfl rfl
  refine ⟨?add, ?sub, ?sll, ?slt, ?sltu, ?xor, ?srl, ?sra, ?or, ?and⟩
  case add | sub | xor | or | and => exact runs_of_writeBack (by simp [decodeOp]) rfl rfl
  case slt => exact runs_of_writeBack (by simp [decodeOp]) rfl (boolWord_eq_ite (ltSigned_iff _ _))
  case sltu => exact runs_of_writeBack (by simp [decodeOp]) rfl (boolWord_eq_ite (ltUnsigned_iff _ _))
  case sll => exact runs_of_writeBack (by simp [decodeOp]) rfl (by rw [shiftAmount64_eq_mod])
  case srl =>
    exact runs_of_writeBack (by simp [decodeOp]) rfl (by rw [shiftAmount64_eq_mod, ushiftRight_eq_ofNat_div])
  case sra =>
    exact runs_of_writeBack (by simp [decodeOp]) rfl (by rw [shiftAmount64_eq_mod, sshiftRight_eq_ofInt_div])

/-! ### The 32-bit instructions (R202 to R206) -/

/-- Settles O41: five rows of the table; each result is that of the low words, shifted by `x[rs2]` modulo 32. -/
theorem registerOps32 : Obligations.RegisterOps32 := by
  rintro rd rs1 rs2 s _ _ rfl rfl
  refine ⟨?addw, ?subw, ?sllw, ?srlw, ?sraw⟩
  case addw => exact runs_of_writeBack (by simp [decodeOp32]) rfl (congrArg sext32 (low32_add _ _))
  case subw => exact runs_of_writeBack (by simp [decodeOp32]) rfl (congrArg sext32 (low32_sub _ _))
  case sllw => exact runs_of_writeBack (by simp [decodeOp32]) rfl (by simp only [shiftAmount32_eq_mod, sext32, low32])
  case srlw =>
    exact runs_of_writeBack (by simp [decodeOp32]) rfl
      (by simp only [shiftAmount32_eq_mod, ushiftRight_eq_ofNat_div, sext32, low32])
  case sraw =>
    exact runs_of_writeBack (by simp [decodeOp32]) rfl
      (by simp only [shiftAmount32_eq_mod, sext32_sshiftRight, low32])

end Sys2Proof.Machine

/-! Multiplication and division (44_muldiv.md R211 to R224 with the laws of R225 and R226): each R-type word with
`funct7 = 1` decodes through the table of its opcode, and each instruction writes its result back to rd. What is left is
that the model's results are the numbers of the laws, which are proved once for every width. -/

namespace Sys2Proof.Machine

/-! ### Products (R226) -/

/-- Bits 127 to 64 are the exact product divided by 2^64, rounding down. -/
theorem highHalf_eq_ofInt_div (product : Int) : highHalf product = BitVec.ofInt 64 (product / 2 ^ 64) := by
  apply BitVec.eq_of_toNat_eq
  rw [highHalf, BitVec.extractLsb'_toNat, BitVec.toNat_ofInt, BitVec.toNat_ofInt, Nat.shiftRight_eq_div_pow]
  omega

section
variable {w : Nat} {a b : BitVec w}

/-- The product modulo `2 ^ w`. -/
theorem mul_eq_ofNat (a b : BitVec w) : a * b = BitVec.ofNat w (a.toNat * b.toNat) := by
  rw [BitVec.ofNat_mul, BitVec.ofNat_toNat, BitVec.ofNat_toNat, BitVec.setWidth_eq, BitVec.setWidth_eq]

/-! ### The row of the divisor 0 (R225) -/

@[simp] theorem divSigned_zero : divSigned a 0#w = BitVec.allOnes w := if_pos rfl

@[simp] theorem remSigned_zero : remSigned a 0#w = a := if_pos rfl

@[simp] theorem divUnsigned_zero : divUnsigned a 0#w = BitVec.allOnes w := if_pos rfl

@[simp] theorem remUnsigned_zero : remUnsigned a 0#w = a := if_pos rfl

/-! ### Unsigned division (R225) -/

theorem divUnsigned_of_ne_zero (hb : b ≠ 0) : divUnsigned a b = a / b := by
  rw [divUnsigned, if_neg hb, BitVec.udiv_def]

theorem remUnsigned_of_ne_zero (hb : b ≠ 0) : remUnsigned a b = a % b := by
  rw [remUnsigned, if_neg hb, BitVec.umod_def]

theorem toNat_divUnsigned (hb : b ≠ 0) : (divUnsigned a b).toNat = a.toNat / b.toNat := by
  rw [divUnsigned_of_ne_zero hb, BitVec.toNat_udiv]

theorem toNat_remUnsigned (hb : b ≠ 0) : (remUnsigned a b).toNat = a.toNat - b.toNat * (a.toNat / b.toNat) := by
  rw [remUnsigned_of_ne_zero hb, BitVec.toNat_umod, Nat.mod_eq_sub_mul_div]

/-- The identity of division, from that of the numbers, where the divisor is not 0. -/
theorem eq_mul_divUnsigned_add_remUnsigned (a b : BitVec w) : a = b * divUnsigned a b + remUnsigned a b := by
  by_cases hb : b = 0
  · simp [hb]
  · apply BitVec.eq_of_toNat_eq
    rw [divUnsigned_of_ne_zero hb, remUnsigned_of_ne_zero hb, BitVec.toNat_add, BitVec.toNat_mul, BitVec.toNat_udiv,
      BitVec.toNat_umod, Nat.mod_add_mod, Nat.div_add_mod, Nat.mod_eq_of_lt a.isLt]

/-- The model's unsigned quotient and remainder meet the table. -/
theorem unsignedDivision_divUnsigned_remUnsigned (a b : BitVec w) :
    UnsignedDivision a b (divUnsigned a b) (remUnsigned a b) :=
  ⟨fun hb => by simp [hb], fun hb => ⟨toNat_divUnsigned hb, toNat_remUnsigned hb⟩,
    eq_mul_divUnsigned_add_remUnsigned a b⟩

/-! ### Signed division (R225) -/

theorem allOnes_eq_zero_iff : BitVec.allOnes w = 0 ↔ w = 0 := by
  rw [← BitVec.neg_one_eq_allOnes]
  exact BitVec.neg_one_eq_zero_iff

/-- The overflow row; at width 0, where all ones is 0, all vectors are equal. -/
theorem divSigned_overflow (w : Nat) : divSigned (BitVec.intMin w) (BitVec.allOnes w) = BitVec.intMin w := by
  by_cases hw : w = 0
  · subst hw; rfl
  · rw [divSigned, if_neg (mt allOnes_eq_zero_iff.mp hw), if_pos ⟨rfl, rfl⟩]

theorem remSigned_overflow (w : Nat) : remSigned (BitVec.intMin w) (BitVec.allOnes w) = 0 := by
  by_cases hw : w = 0
  · subst hw; rfl
  · rw [remSigned, if_neg (mt allOnes_eq_zero_iff.mp hw), if_pos ⟨rfl, rfl⟩]

/-- The quotient of the last row fits in the width: overflow is the one case in which it does not. -/
theorem toInt_divSigned (hb : b ≠ 0) (ho : ¬(a = BitVec.intMin w ∧ b = BitVec.allOnes w)) :
    (divSigned a b).toInt = a.toInt.tdiv b.toInt := by
  have hq : (a.sdiv b).toInt = a.toInt.tdiv b.toInt :=
    BitVec.toInt_sdiv_of_ne_or_ne a b (by rwa [BitVec.neg_one_eq_allOnes, ne_eq, ne_eq, ← not_and_or])
  rw [divSigned, if_neg hb, if_neg ho, ← hq, BitVec.ofInt_toInt]

theorem toInt_remSigned (hb : b ≠ 0) (ho : ¬(a = BitVec.intMin w ∧ b = BitVec.allOnes w)) :
    (remSigned a b).toInt = a.toInt - b.toInt * a.toInt.tdiv b.toInt := by
  rw [remSigned, if_neg hb, if_neg ho, ← Int.tmod_def, ← BitVec.toInt_srem, BitVec.ofInt_toInt]

/-- The identity of division, row by row: `-INT_MIN = INT_MIN` in the overflow row, that of the numbers in the last. -/
theorem eq_mul_divSigned_add_remSigned (a b : BitVec w) : a = b * divSigned a b + remSigned a b := by
  by_cases hb : b = 0
  · simp [hb]
  by_cases ho : a = BitVec.intMin w ∧ b = BitVec.allOnes w
  · obtain ⟨rfl, rfl⟩ := ho
    rw [divSigned_overflow, remSigned_overflow, ← BitVec.neg_one_eq_allOnes, ← BitVec.neg_eq_neg_one_mul,
      BitVec.neg_intMin]
    simp
  · calc a = BitVec.ofInt w (b.toInt * (divSigned a b).toInt + (remSigned a b).toInt) := by
          simp [toInt_divSigned hb ho, toInt_remSigned hb ho]
      _ = b * divSigned a b + remSigned a b := by rw [BitVec.ofInt_add, BitVec.ofInt_mul]; simp

/-- The model's signed quotient and remainder meet the table. -/
theorem signedDivision_divSigned_remSigned (a b : BitVec w) :
    SignedDivision a b (divSigned a b) (remSigned a b) := by
  refine ⟨?byZero, ?overflow, ?regular, eq_mul_divSigned_add_remSigned a b⟩
  case byZero => rintro rfl; exact ⟨divSigned_zero, remSigned_zero⟩
  case overflow => rintro rfl rfl; exact ⟨divSigned_overflow w, remSigned_overflow w⟩
  case regular => exact fun hb ho => ⟨toInt_divSigned hb ho, toInt_remSigned hb ho⟩

end

/-! ### The instructions -/

/-- Settles O42: four rows of the table; the low half is the product modulo 2^64, the high half of each exact product its
quotient by 2^64. -/
theorem multiply : Obligations.Multiply := by
  rintro rd rs1 rs2 s _ _ rfl rfl
  refine ⟨?mul, ?mulh, ?mulhsu, ?mulhu⟩
  case mul => exact runs_of_writeBack (by simp [decodeOp]) rfl (mul_eq_ofNat _ _)
  case mulh | mulhsu => exact runs_of_writeBack (by simp [decodeOp]) rfl (highHalf_eq_ofInt_div _)
  case mulhu =>
    exact runs_of_writeBack (by simp [decodeOp]) rfl ((highHalf_eq_ofInt_div _).trans (BitVec.ofInt_natCast _ _))

/-- Settles O43: the quotients and remainders are the model's, at width 64. -/
theorem divide : Obligations.Divide := by
  rintro rd rs1 rs2 s _ _ rfl rfl
  refine ⟨_, _, _, _, signedDivision_divSigned_remSigned _ _, unsignedDivision_divUnsigned_remUnsigned _ _,
    ?div, ?divu, ?rem, ?remu⟩
  case div | divu | rem | remu => exact runs_of_writeBack (by simp [decodeOp]) rfl rfl

/-- Settles O44: the product, quotients and remainders are the model's, at width 32. -/
theorem wordMultiplyDivide : Obligations.WordMultiplyDivide := by
  rintro rd rs1 rs2 s _ _ rfl rfl
  refine ⟨_, _, _, _, signedDivision_divSigned_remSigned _ _, unsignedDivision_divUnsigned_remUnsigned _ _,
    ?mulw, ?divw, ?divuw, ?remw, ?remuw⟩
  case mulw => exact runs_of_writeBack (by simp [decodeOp32]) rfl (congrArg sext32 (mul_eq_ofNat _ _))
  case divw | divuw | remw | remuw => exact runs_of_writeBack (by simp [decodeOp32]) rfl rfl

end Sys2Proof.Machine

/-! The syscall engine (47_syscalls.md R260 to R277): the word of an ECALL, and the calls that end the guest (R262,
R263). -/

namespace Sys2Proof

/-- Opcode `0x73` with `funct3 = 0` and immediate 0 is ECALL, whatever its register fields are (R241). -/
@[simp] theorem decode_iType_ecall (rs1 rd : Reg) : decode (iType 0#12 rs1 0#3 rd 0x73#7) = .ecall rd rs1 := by
  simp [decode, decodeSystem]

end Sys2Proof

namespace Sys2Proof.Machine

/-- An ECALL word runs the syscall engine. -/
theorem runs_of_syscall {rd rs1 : Reg} {s : State} {r : Result State} (h : syscall s = r) :
    Runs (iType 0 rs1 0 rd 0x73) (.ecall rd rs1) s r :=
  ⟨decode_iType_ecall rs1 rd, h⟩

/-- The numbers 93 and 94 end the guest in the same way, with `a0` as its status (R262, R263). -/
theorem syscall_eq_exitWith {s : State} (h : argA7 s = 93 ∨ argA7 s = 94) : syscall s = exitWith (argA0 s) s := by
  rcases h with hexit | hgroup
  · rw [syscall, if_pos hexit, sysExit]
  · have hne : argA7 s ≠ 93 := by rw [hgroup]; decide
    rw [syscall, if_neg hne, if_pos hgroup, sysExitGroup]

/-- Settles O49: the word is an ECALL, and both numbers lead to `exitWith`, which keeps pc and the registers. -/
theorem syscallExit : Obligations.SyscallExit :=
  fun _ _ _ h => runs_of_syscall (syscall_eq_exitWith h)

end Sys2Proof.Machine

/-! The encoding (30_encoding.md R101 to R112): each opcode leads to the table of its family (R108); a word is put together
again from the fields cut out of it, format by format (R110); hence the encoder and the decoder are inverse to each
other, for the 111 rows and for the 2^32 words. -/

namespace Sys2Proof

/-! ### Dispatch on the opcode (R108) -/

section
variable {w : BitVec 32}

theorem decode_eq_decodeLoad (h : opcodeOf w = 0x03) : decode w = decodeLoad w := by simp [decode, h]
theorem decode_eq_decodeStore (h : opcodeOf w = 0x23) : decode w = decodeStore w := by simp [decode, h]
theorem decode_eq_decodeBranch (h : opcodeOf w = 0x63) : decode w = decodeBranch w := by simp [decode, h]
theorem decode_eq_decodeOp (h : opcodeOf w = 0x33) : decode w = decodeOp w := by simp [decode, h]
theorem decode_eq_decodeOp32 (h : opcodeOf w = 0x3B) : decode w = decodeOp32 w := by simp [decode, h]
theorem decode_eq_decodeSystem (h : opcodeOf w = 0x73) : decode w = decodeSystem w := by simp [decode, h]
theorem decode_eq_decodeAmo (h : opcodeOf w = 0x2F) : decode w = decodeAmo w := by simp [decode, h]
theorem decode_eq_decodeMiscMem (h : opcodeOf w = 0x0F) : decode w = decodeMiscMem w := by simp [decode, h]
theorem decode_eq_lui (h : opcodeOf w = 0x37) : decode w = .lui (rdOf w) (immUOf w) := by simp [decode, h]
theorem decode_eq_auipc (h : opcodeOf w = 0x17) : decode w = .auipc (rdOf w) (immUOf w) := by simp [decode, h]
theorem decode_eq_jal (h : opcodeOf w = 0x6F) : decode w = .jal (rdOf w) (immJOf w) := by simp [decode, h]
theorem decode_eq_jalr (h : opcodeOf w = 0x67) :
    decode w = .jalr (funct3Of w) (rdOf w) (rs1Of w) (immIOf w) := by simp [decode, h]
theorem decode_eq_fpLoad (h : opcodeOf w = 0x07) : decode w = .fpLoad (restOf w) := by simp [decode, h]
theorem decode_eq_fpStore (h : opcodeOf w = 0x27) : decode w = .fpStore (restOf w) := by simp [decode, h]
theorem decode_eq_fpOp (h : opcodeOf w = 0x53) : decode w = .fpOp (restOf w) := by simp [decode, h]

end

/-! ### Which values a field has when it has not the listed ones -/

theorem funct3_ne_of_four_le {f3 : BitVec 3} (h : 4 ≤ f3.toNat) : f3 ≠ 0#3 ∧ f3 ≠ 1#3 ∧ f3 ≠ 2#3 ∧ f3 ≠ 3#3 := by
  revert f3; decide

theorem four_le_of_funct3_ne {f3 : BitVec 3} (h0 : f3 ≠ 0) (h1 : f3 ≠ 1) (h2 : f3 ≠ 2) (h3 : f3 ≠ 3) :
    4 ≤ f3.toNat := by
  revert f3; decide

theorem funct3_cases (f3 : BitVec 3) :
    f3 = 0 ∨ f3 = 1 ∨ f3 = 2 ∨ f3 = 3 ∨ f3 = 4 ∨ f3 = 5 ∨ f3 = 6 ∨ f3 = 7 := by
  revert f3; decide

/-- The word of a well-formed instruction decodes to it: the opcode picks the family, the function codes the row. -/
theorem decode_encode {i : Instr} (h : WellFormed i = true) : decode (encode i) = i := by
  cases i
  case lb | lh | lw | ld | lbu | lhu | lwu | rsvLoad7 => simp [encode, decode_eq_decodeLoad, decodeLoad]
  case sb | sh | sw | sd => simp [encode, decode_eq_decodeStore, decodeStore]
  case beq | bne | blt | bge | bltu | bgeu =>
    simp [encode, decode_eq_decodeBranch, decodeBranch, immBOf_bType _ _ _ _ _ h]
  case addi | slti | sltiu | xori | ori | andi | slli | srli | srai =>
    simp [encode, decode_eq_decodeOpImm, decodeOpImm]
  case addiw | slliw | srliw | sraiw => simp [encode, decode_eq_decodeOpImm32, decodeOpImm32]
  case add | sub | sll | slt | sltu | xor | srl | sra | or | and | mul | mulh | mulhsu | mulhu | div | divu | rem | remu =>
    simp [encode, decodeOp]
  case addw | subw | sllw | srlw | sraw | mulw | divw | divuw | remw | remuw => simp [encode, decodeOp32]
  case lui => simp [encode, decode_eq_lui]
  case auipc => simp [encode, decode_eq_auipc]
  case jal => simp [encode, decode_eq_jal, immJOf_jType _ _ _ h]
  case jalr => simp [encode, decode_eq_jalr]
  case ecall | ebreak | csrrw | csrrs | csrrc | csrrwi | csrrsi | csrrci | rsvSystem4 =>
    simp [encode, decode_eq_decodeSystem, decodeSystem]
  case lrW | scW | amoswapW | amoaddW | amoxorW | amoandW | amoorW | amominW | amomaxW | amominuW | amomaxuW =>
    simp [encode, decode_eq_decodeAmo, decodeAmo, decodeAmoW]
  case lrD | scD | amoswapD | amoaddD | amoxorD | amoandD | amoorD | amominD | amomaxD | amominuD | amomaxuD =>
    simp [encode, decode_eq_decodeAmo, decodeAmo, decodeAmoD]
  case fence | fenceI => simp [encode, decode_eq_decodeMiscMem, decodeMiscMem]
  case fpLoad => simp [encode, decode_eq_fpLoad]
  case fpStore => simp [encode, decode_eq_fpStore]
  case fpOp => simp [encode, decode_eq_fpOp]
  case rsvStore =>
    obtain ⟨h0, h1, h2, h3⟩ := funct3_ne_of_four_le (of_decide_eq_true h)
    simp [encode, decode_eq_decodeStore, decodeStore, h0, h1, h2, h3]
  case rsvBranch =>
    simp only [WellFormed, Bool.and_eq_true, Bool.or_eq_true, beq_iff_eq] at h
    obtain ⟨rfl | rfl, heven⟩ := h <;>
      simp [encode, decode_eq_decodeBranch, decodeBranch, immBOf_bType _ _ _ _ _ (beq_iff_eq.mpr heven)]
  case rsvOpImm =>
    simp only [WellFormed, Bool.and_eq_true, Bool.or_eq_true, beq_iff_eq, bne_iff_ne] at h
    rcases h with ⟨rfl, h0⟩ | ⟨⟨rfl, h0⟩, h10⟩ <;> simp_all [encode, decode_eq_decodeOpImm, decodeOpImm]
  case rsvOpImm32 =>
    simp only [WellFormed, Bool.and_eq_true, Bool.or_eq_true, beq_iff_eq, bne_iff_ne] at h
    rcases h with (((((rfl | rfl) | rfl) | rfl) | rfl) | ⟨rfl, h0⟩) | ⟨⟨rfl, h0⟩, h20⟩ <;>
      simp_all [encode, decode_eq_decodeOpImm32, decodeOpImm32]
  case rsvOp =>
    simp only [WellFormed, Bool.and_eq_true, Bool.or_eq_true, bne_iff_ne, beq_iff_eq] at h
    rcases h with ⟨⟨h0, h1⟩, h20⟩ | ⟨⟨rfl, h0⟩, h5⟩ <;> simp_all [encode, decodeOp]
  case rsvOp32 =>
    simp only [WellFormed, Bool.and_eq_true, Bool.or_eq_true, bne_iff_ne, beq_iff_eq] at h
    rcases h with ((⟨⟨h0, h1⟩, h20⟩ | ⟨⟨⟨rfl, h0⟩, h1⟩, h5⟩) | ⟨⟨rfl, h0⟩, h5⟩) | ⟨rfl, (rfl | rfl) | rfl⟩ <;>
      simp_all [encode, decodeOp32]
  case rsvSystem0 =>
    simp only [WellFormed, Bool.and_eq_true, bne_iff_ne] at h
    obtain ⟨h0, h1⟩ := h
    simp_all [encode, decode_eq_decodeSystem, decodeSystem]
  case rsvAmoSize =>
    simp only [WellFormed, Bool.or_eq_true, beq_iff_eq] at h
    rcases h with rfl | rfl <;> simp [encode, decode_eq_decodeAmo, decodeAmo]
  case rsvAmoWidth =>
    obtain ⟨h0, h1, h2, h3⟩ := funct3_ne_of_four_le (of_decide_eq_true h)
    simp [encode, decode_eq_decodeAmo, decodeAmo, h0, h1, h2, h3]
  case rsvAmoOp =>
    simp only [WellFormed, amoOps, Bool.and_eq_true, Bool.or_eq_true, beq_iff_eq, Bool.not_eq_true', List.contains_eq_mem,
      decide_eq_false_iff_not, List.mem_cons, List.not_mem_nil, or_false, not_or] at h
    obtain ⟨rfl | rfl, hop⟩ := h
    · simp_all [encode, decode_eq_decodeAmo, decodeAmo, decodeAmoW]
    · simp_all [encode, decode_eq_decodeAmo, decodeAmo, decodeAmoD]
  case rsvMiscmem =>
    simp only [WellFormed, Bool.and_eq_true, bne_iff_ne] at h
    obtain ⟨h0, h1⟩ := h
    simp_all [encode, decode_eq_decodeMiscMem, decodeMiscMem]
  case rsvUnknown w =>
    simp only [WellFormed, List.contains_eq_mem, Bool.not_eq_true', decide_eq_false_iff_not] at h
    exact decode_of_not_handled h

/-- The four bytes of a word, least significant first, make the word (R68, R100). -/
theorem wordOfBytes_wordByte (w : BitVec 32) :
    wordOfBytes (wordByte w 0) (wordByte w 1) (wordByte w 2) (wordByte w 3) = w := by
  apply BitVec.eq_of_toNat_eq
  simp only [wordOfBytes, wordByte, BitVec.extractLsb'_toNat, toNat_append_add, Nat.shiftRight_eq_div_pow]
  omega

/-- Settles O20: the decoder reads the word of the four bytes. -/
theorem decodeEncode : Obligations.DecodeEncode := fun i rest h => by
  refine ⟨decode_encode h, ?_⟩
  rw [encodeBytes, List.cons_append, List.cons_append, List.cons_append, List.cons_append, List.nil_append, decodeBytes,
    wordOfBytes_wordByte, decode_encode h]

/-! ### A word is made of its fields, format by format (R110) -/

section
variable {w : BitVec 32} {op : BitVec 7} {f3 : BitVec 3} {f7 : BitVec 7} {f6 : BitVec 6} {aop : BitVec 5}

theorem rType_fields (ho : opcodeOf w = op) (h3 : funct3Of w = f3) (h7 : funct7Of w = f7) :
    rType f7 (rs2Of w) (rs1Of w) f3 (rdOf w) op = w := by
  subst ho h3 h7
  apply BitVec.eq_of_toNat_eq
  simp only [rType, opcodeOf, rdOf, funct3Of, rs1Of, rs2Of, funct7Of, BitVec.extractLsb'_toNat, toNat_append_add,
    Nat.shiftRight_eq_div_pow]
  omega

theorem iType_fields (ho : opcodeOf w = op) (h3 : funct3Of w = f3) :
    iType (immIOf w) (rs1Of w) f3 (rdOf w) op = w := by
  subst ho h3
  apply BitVec.eq_of_toNat_eq
  simp only [iType, opcodeOf, rdOf, funct3Of, rs1Of, immIOf, BitVec.extractLsb'_toNat, toNat_append_add,
    Nat.shiftRight_eq_div_pow]
  omega

theorem sType_fields (ho : opcodeOf w = op) (h3 : funct3Of w = f3) :
    sType (immSOf w) (rs2Of w) (rs1Of w) f3 op = w := by
  subst ho h3
  apply BitVec.eq_of_toNat_eq
  simp only [sType, opcodeOf, funct3Of, rs1Of, rs2Of, immSOf, BitVec.extractLsb'_toNat, toNat_append_add,
    Nat.shiftRight_eq_div_pow]
  omega

/-- The pieces of an even branch offset at their places in a B-type word; the inverse of `immBOf_pieces`. -/
theorem bType_pieces (b12 b11 : BitVec 1) (b10 : BitVec 6) (b4 : BitVec 4) (rs2 rs1 : Reg) (f3 : BitVec 3)
    (op : BitVec 7) :
    bType (b12 ++ b11 ++ b10 ++ b4 ++ 0#1) rs2 rs1 f3 op = b12 ++ b10 ++ rs2 ++ rs1 ++ f3 ++ b4 ++ b11 ++ op := by
  apply BitVec.eq_of_toNat_eq
  simp only [bType, BitVec.extractLsb'_toNat, toNat_append_add, Nat.shiftRight_eq_div_pow, BitVec.toNat_ofNat]
  omega

theorem bType_fields (ho : opcodeOf w = op) (h3 : funct3Of w = f3) :
    bType (immBOf w) (rs2Of w) (rs1Of w) f3 op = w := by
  subst ho h3
  rw [immBOf, bType_pieces]
  apply BitVec.eq_of_toNat_eq
  simp only [opcodeOf, funct3Of, rs1Of, rs2Of, BitVec.extractLsb'_toNat, toNat_append_add, Nat.shiftRight_eq_div_pow]
  omega

theorem uType_fields (ho : opcodeOf w = op) : uType (immUOf w) (rdOf w) op = w := by
  subst ho
  apply BitVec.eq_of_toNat_eq
  simp only [uType, opcodeOf, rdOf, immUOf, BitVec.extractLsb'_toNat, toNat_append_add, Nat.shiftRight_eq_div_pow]
  omega

/-- The pieces of an even jump offset at their places in a J-type word; the inverse of `immJOf_pieces`. -/
theorem jType_pieces (b20 b11 : BitVec 1) (b10 : BitVec 10) (b19 : BitVec 8) (rd : Reg) (op : BitVec 7) :
    jType (b20 ++ b19 ++ b11 ++ b10 ++ 0#1) rd op = b20 ++ b10 ++ b11 ++ b19 ++ rd ++ op := by
  have h20 : (b20 ++ b19 ++ b11 ++ b10 ++ 0#1 : BitVec 21).extractLsb' 20 1 = b20 := by
    apply BitVec.eq_of_toNat_eq
    simp only [BitVec.extractLsb'_toNat, toNat_append_add, Nat.shiftRight_eq_div_pow, BitVec.toNat_ofNat]
    omega
  have h10 : (b20 ++ b19 ++ b11 ++ b10 ++ 0#1 : BitVec 21).extractLsb' 1 10 = b10 := by
    apply BitVec.eq_of_toNat_eq
    simp only [BitVec.extractLsb'_toNat, toNat_append_add, Nat.shiftRight_eq_div_pow, BitVec.toNat_ofNat]
    omega
  have h11 : (b20 ++ b19 ++ b11 ++ b10 ++ 0#1 : BitVec 21).extractLsb' 11 1 = b11 := by
    apply BitVec.eq_of_toNat_eq
    simp only [BitVec.extractLsb'_toNat, toNat_append_add, Nat.shiftRight_eq_div_pow, BitVec.toNat_ofNat]
    omega
  have h19 : (b20 ++ b19 ++ b11 ++ b10 ++ 0#1 : BitVec 21).extractLsb' 12 8 = b19 := by
    apply BitVec.eq_of_toNat_eq
    simp only [BitVec.extractLsb'_toNat, toNat_append_add, Nat.shiftRight_eq_div_pow, BitVec.toNat_ofNat]
    omega
  rw [jType, h20, h10, h11, h19]

theorem jType_fields (ho : opcodeOf w = op) : jType (immJOf w) (rdOf w) op = w := by
  subst ho
  rw [immJOf, jType_pieces]
  apply BitVec.eq_of_toNat_eq
  simp only [opcodeOf, rdOf, BitVec.extractLsb'_toNat, toNat_append_add, Nat.shiftRight_eq_div_pow]
  omega

theorem shift6Type_fields (ho : opcodeOf w = op) (h3 : funct3Of w = f3) (h6 : funct6Of w = f6) :
    shift6Type f6 (shamt6Of w) (rs1Of w) f3 (rdOf w) op = w := by
  subst ho h3 h6
  apply BitVec.eq_of_toNat_eq
  simp only [shift6Type, opcodeOf, rdOf, funct3Of, rs1Of, shamt6Of, funct6Of, BitVec.extractLsb'_toNat,
    toNat_append_add, Nat.shiftRight_eq_div_pow]
  omega

theorem amoType_fields (ho : opcodeOf w = op) (h3 : funct3Of w = f3) (ha : amoOpOf w = aop) :
    amoType aop (aqOf w) (rlOf w) (rs2Of w) (rs1Of w) f3 (rdOf w) op = w := by
  subst ho h3 ha
  apply BitVec.eq_of_toNat_eq
  simp only [amoType, opcodeOf, rdOf, funct3Of, rs1Of, rs2Of, amoOpOf, aqOf, rlOf, BitVec.extractLsb'_toNat,
    toNat_append_add, Nat.shiftRight_eq_div_pow]
  omega

theorem anyType_fields (ho : opcodeOf w = op) : anyType (restOf w) op = w := by
  subst ho
  apply BitVec.eq_of_toNat_eq
  simp only [anyType, opcodeOf, restOf, BitVec.extractLsb'_toNat, toNat_append_add, Nat.shiftRight_eq_div_pow]
  omega

/-- The offsets that the decoder cuts out of a word are even (R104, R106). -/
theorem immBOf_even (w : BitVec 32) : ((immBOf w).getLsbD 0 == false) = true := by
  rw [immBOf, BitVec.getLsbD_append]; rfl

theorem immJOf_even (w : BitVec 32) : ((immJOf w).getLsbD 0 == false) = true := by
  rw [immJOf, BitVec.getLsbD_append]; rfl

end

/-! ### Every word decodes to a well-formed instruction with that word, family by family -/

/-- `i` is a well-formed instruction and `w` is its word. -/
def IsWordOf (w : BitVec 32) (i : Instr) : Prop := WellFormed i = true ∧ encode i = w

/-- A table of tests answers words of `w` if each of its answers is one where its test holds. -/
theorem isWordOf_ite {w : BitVec 32} {c : Prop} [Decidable c] {i j : Instr} (hi : c → IsWordOf w i)
    (hj : ¬c → IsWordOf w j) : IsWordOf w (if c then i else j) :=
  iteInduction (motive := IsWordOf w) hi hj

section
variable {w : BitVec 32}

theorem isWordOf_decodeLoad (h : opcodeOf w = 0x03) : IsWordOf w (decodeLoad w) := by
  unfold decodeLoad
  repeat refine isWordOf_ite (fun h3 => ⟨rfl, iType_fields h h3⟩) fun _ => ?_
  have h7 : funct3Of w = 7 := by
    have := funct3_cases (funct3Of w)
    tauto
  exact ⟨rfl, iType_fields h h7⟩

theorem isWordOf_decodeStore (h : opcodeOf w = 0x23) : IsWordOf w (decodeStore w) := by
  unfold decodeStore
  repeat refine isWordOf_ite (fun h3 => ⟨rfl, sType_fields h h3⟩) fun _ => ?_
  exact ⟨decide_eq_true (four_le_of_funct3_ne ‹_› ‹_› ‹_› ‹_›), sType_fields h rfl⟩

theorem isWordOf_decodeBranch (h : opcodeOf w = 0x63) : IsWordOf w (decodeBranch w) := by
  unfold decodeBranch
  repeat refine isWordOf_ite (fun h3 => ⟨immBOf_even w, bType_fields h h3⟩) fun _ => ?_
  have h23 : funct3Of w = 2 ∨ funct3Of w = 3 := by
    have := funct3_cases (funct3Of w)
    tauto
  exact ⟨by simp only [WellFormed, immBOf_even, Bool.and_true, Bool.or_eq_true, beq_iff_eq, h23],
    bType_fields h rfl⟩

theorem isWordOf_decodeOpImm (h : opcodeOf w = 0x13) : IsWordOf w (decodeOpImm w) := by
  unfold decodeOpImm
  iterate 6 refine isWordOf_ite (fun h3 => ⟨rfl, iType_fields h h3⟩) fun _ => ?_
  iterate 3 refine isWordOf_ite (fun hf => ⟨rfl, shift6Type_fields h hf.1 hf.2⟩) fun _ => ?_
  refine ⟨?_, shift6Type_fields h rfl rfl⟩
  have := funct3_cases (funct3Of w)
  simp only [WellFormed, Bool.or_eq_true, Bool.and_eq_true, beq_iff_eq, bne_iff_ne]
  tauto

theorem isWordOf_decodeOpImm32 (h : opcodeOf w = 0x1B) : IsWordOf w (decodeOpImm32 w) := by
  unfold decodeOpImm32
  refine isWordOf_ite (fun h3 => ⟨rfl, iType_fields h h3⟩) fun _ => ?_
  iterate 3 refine isWordOf_ite (fun hf => ⟨rfl, rType_fields h hf.1 hf.2⟩) fun _ => ?_
  refine ⟨?_, rType_fields h rfl rfl⟩
  have := funct3_cases (funct3Of w)
  simp only [WellFormed, Bool.or_eq_true, Bool.and_eq_true, beq_iff_eq, bne_iff_ne]
  tauto

theorem isWordOf_decodeOp (h : opcodeOf w = 0x33) : IsWordOf w (decodeOp w) := by
  unfold decodeOp
  iterate 18 refine isWordOf_ite (fun hf => ⟨rfl, rType_fields h hf.2 hf.1⟩) fun _ => ?_
  refine ⟨?_, rType_fields h rfl rfl⟩
  rcases funct3_cases (funct3Of w) with h3 | h3 | h3 | h3 | h3 | h3 | h3 | h3 <;> simp_all [WellFormed, em']

theorem isWordOf_decodeOp32 (h : opcodeOf w = 0x3B) : IsWordOf w (decodeOp32 w) := by
  unfold decodeOp32
  iterate 10 refine isWordOf_ite (fun hf => ⟨rfl, rType_fields h hf.2 hf.1⟩) fun _ => ?_
  refine ⟨?_, rType_fields h rfl rfl⟩
  rcases funct3_cases (funct3Of w) with h3 | h3 | h3 | h3 | h3 | h3 | h3 | h3 <;> simp_all [WellFormed] <;> tauto

/-- A SYSTEM word with `funct3 = 0` and a given immediate (R240). -/
theorem iType_fields_imm {imm : BitVec 12} (h : opcodeOf w = 0x73) (hf : funct3Of w = 0 ∧ immIOf w = imm) :
    iType imm (rs1Of w) 0 (rdOf w) 0x73 = w := by
  rw [← hf.2, iType_fields h hf.1]

theorem isWordOf_decodeSystem (h : opcodeOf w = 0x73) : IsWordOf w (decodeSystem w) := by
  unfold decodeSystem
  iterate 2 refine isWordOf_ite (fun hf => ⟨rfl, iType_fields_imm h hf⟩) fun _ => ?_
  refine isWordOf_ite (fun h3 => ⟨?_, iType_fields h h3⟩) fun _ => ?_
  · simp_all [WellFormed]
  iterate 6 refine isWordOf_ite (fun h3 => ⟨rfl, iType_fields h h3⟩) fun _ => ?_
  have h4 : funct3Of w = 4 := by
    have := funct3_cases (funct3Of w)
    tauto
  exact ⟨rfl, iType_fields h h4⟩

theorem isWordOf_decodeAmoW (h : opcodeOf w = 0x2F) (h3 : funct3Of w = 2) : IsWordOf w (decodeAmoW w) := by
  unfold decodeAmoW
  iterate 11 refine isWordOf_ite (fun hop => ⟨rfl, amoType_fields h h3 hop⟩) fun _ => ?_
  exact ⟨by simp_all [WellFormed, amoOps], amoType_fields h rfl rfl⟩

theorem isWordOf_decodeAmoD (h : opcodeOf w = 0x2F) (h3 : funct3Of w = 3) : IsWordOf w (decodeAmoD w) := by
  unfold decodeAmoD
  iterate 11 refine isWordOf_ite (fun hop => ⟨rfl, amoType_fields h h3 hop⟩) fun _ => ?_
  exact ⟨by simp_all [WellFormed, amoOps], amoType_fields h rfl rfl⟩

theorem isWordOf_decodeAmo (h : opcodeOf w = 0x2F) : IsWordOf w (decodeAmo w) := by
  unfold decodeAmo
  refine isWordOf_ite (fun h01 => ⟨by simpa [WellFormed] using h01, amoType_fields h rfl rfl⟩) fun h01 => ?_
  refine isWordOf_ite (isWordOf_decodeAmoW h) fun h2 => isWordOf_ite (isWordOf_decodeAmoD h) fun h3 => ?_
  obtain ⟨h0, h1⟩ := not_or.mp h01
  exact ⟨decide_eq_true (four_le_of_funct3_ne h0 h1 h2 h3), amoType_fields h rfl rfl⟩

theorem isWordOf_decodeMiscMem (h : opcodeOf w = 0x0F) : IsWordOf w (decodeMiscMem w) := by
  unfold decodeMiscMem
  iterate 2 refine isWordOf_ite (fun h3 => ⟨rfl, iType_fields h h3⟩) fun _ => ?_
  exact ⟨by simp_all [WellFormed], iType_fields h rfl⟩

end

/-- Every word decodes to a well-formed instruction whose word it is: one of the 17 opcodes leads to its family or to a
row of its own, another one to the default row. -/
theorem isWordOf_decode (w : BitVec 32) : IsWordOf w (decode w) := by
  by_cases hh : opcodeOf w ∈ handledOpcodes
  case neg =>
    rw [decode_of_not_handled hh]
    exact ⟨by rw [WellFormed, List.contains_eq_mem, ← opcodeOf, decide_eq_false hh, Bool.not_false], rfl⟩
  simp only [handledOpcodes, List.mem_cons, List.not_mem_nil, or_false] at hh
  rcases hh with h | h | h | h | h | h | h | h | h | h | h | h | h | h | h | h | h
  · exact decode_eq_decodeLoad h ▸ isWordOf_decodeLoad h
  · exact decode_eq_fpLoad h ▸ ⟨rfl, anyType_fields h⟩
  · exact decode_eq_decodeMiscMem h ▸ isWordOf_decodeMiscMem h
  · exact decode_eq_decodeOpImm h ▸ isWordOf_decodeOpImm h
  · exact decode_eq_auipc h ▸ ⟨rfl, uType_fields h⟩
  · exact decode_eq_decodeOpImm32 h ▸ isWordOf_decodeOpImm32 h
  · exact decode_eq_decodeStore h ▸ isWordOf_decodeStore h
  · exact decode_eq_fpStore h ▸ ⟨rfl, anyType_fields h⟩
  · exact decode_eq_decodeAmo h ▸ isWordOf_decodeAmo h
  · exact decode_eq_decodeOp h ▸ isWordOf_decodeOp h
  · exact decode_eq_lui h ▸ ⟨rfl, uType_fields h⟩
  · exact decode_eq_decodeOp32 h ▸ isWordOf_decodeOp32 h
  · exact decode_eq_fpOp h ▸ ⟨rfl, anyType_fields h⟩
  · exact decode_eq_decodeBranch h ▸ isWordOf_decodeBranch h
  · exact decode_eq_jalr h ▸ ⟨rfl, iType_fields h rfl⟩
  · exact decode_eq_jal h ▸ ⟨immJOf_even w, jType_fields h⟩
  · exact decode_eq_decodeSystem h ▸ isWordOf_decodeSystem h

/-- Settles O21: a word is the word of what it decodes to. -/
theorem encodeDecode : Obligations.EncodeDecode := isWordOf_decode

end Sys2Proof

/-! What an instruction can do, said once (30_encoding.md R108, 10_state.md R45). `exec` has one arm per row, but each arm
calls one of a dozen shared operations: `Shape` names the operation of an instruction and `CallShape` that of an ECALL.
The frame, the pc, the faults and what is not read are then proved per operation. -/

namespace Sys2Proof.Machine

/-! ### The operation of an instruction -/

/-- The fields that the host alone gives: the step counter (R27), the oracle's table (R39) and the calldata (R36). -/
structure HostFields where
  stepCounter : Word
  oracleTable : List OracleEntry
  inputs : List (List Byte)

/-- The host's fields of a state. -/
def hostFields (s : State) : HostFields := ⟨s.stepCounter, s.oracleTable, s.inputs⟩

/-- The state with other values in the host's fields. -/
def withHost (u : HostFields) (s : State) : State :=
  { s with stepCounter := u.stepCounter, oracleTable := u.oracleTable, inputs := u.inputs }

/-- An instruction that is no ECALL, and what the tables of `Safety` say of it. -/
structure Kind (i : Instr) (dest : Option Reg) (reservation control : Bool) (target : State → Option (Word × Nat)) :
    Prop where
  ecall : isEcall i = false
  dest : destination i = dest
  reservation : isReservationOp i = reservation
  control : isControlTransfer i = control
  target : ∀ s, storeTarget i s = target s

/-- The words that end in a fatal revert whatever the state is, with their reverts (R109, R252, R301). -/
inductive Raises : Instr → Fault → Prop
  | system4 (rd rs1 : Reg) (imm : BitVec 12) : Raises (.rsvSystem4 rd rs1 imm) .invalidCsrMode
  | amoSize (op : BitVec 5) (f3 : BitVec 3) (rd rs1 rs2 : Reg) (aq rl : BitVec 1) :
      Raises (.rsvAmoSize op f3 rd rs1 rs2 aq rl) .invalidAmoSize
  | amoOp (op : BitVec 5) (f3 : BitVec 3) (rd rs1 rs2 : Reg) (aq rl : BitVec 1) :
      Raises (.rsvAmoOp op f3 rd rs1 rs2 aq rl) .unknownAmoOp
  | unknown (w : BitVec 32) : Raises (.rsvUnknown w) .unknownOpcode

/-- The shared operation that an instruction's meaning calls. Its operands are functions of the state that are `blind`:
they do not read the host's fields. -/
inductive Shape (i : Instr) : Prop
  | compute (rd : Reg) (v : State → Word) (kind : Kind i (some rd) false false fun _ => none)
      (run : ∀ s, exec i s = writeBack rd (v s) s) (blind : ∀ u s, v (withHost u s) = v s)
  | skip (kind : Kind i none false false fun _ => none) (run : ∀ s, exec i s = noOperation s)
  | branch (taken : State → Bool) (imm : BitVec 13) (kind : Kind i none false true fun _ => none)
      (run : ∀ s, exec i s = branchIf (taken s) imm s) (blind : ∀ u s, taken (withHost u s) = taken s)
  | jump (rd : Reg) (target : State → Word) (kind : Kind i (some rd) false true fun _ => none)
      (run : ∀ s, exec i s = jumpTo rd (target s) s) (blind : ∀ u s, target (withHost u s) = target s)
  | load (rd rs1 : Reg) (imm : BitVec 12) (size : Nat) (signed : Bool) (h1 : 1 ≤ size) (h8 : size ≤ 8)
      (kind : Kind i (some rd) false false fun _ => none)
      (run : ∀ s, exec i s = loadInto rd (loadAddress rs1 imm s) size signed s)
  | store (rs1 rs2 : Reg) (imm : BitVec 12) (size : Nat) (h1 : 1 ≤ size) (h8 : size ≤ 8)
      (kind : Kind i none false false fun s => some (storeAddress rs1 imm s, size))
      (run : ∀ s, exec i s = storeFrom (storeAddress rs1 imm s) size (getReg s rs2).toNat s)
  | loadReserved (rd rs1 : Reg) (size : Nat) (h1 : 1 ≤ size) (h8 : size ≤ 8)
      (kind : Kind i (some rd) true false fun _ => none) (run : ∀ s, exec i s = loadReserved rd rs1 size s)
  | storeConditional (rd rs1 rs2 : Reg) (size : Nat) (h1 : 1 ≤ size) (h8 : size ≤ 8)
      (kind : Kind i (some rd) true false fun s =>
        if getReg s rs1 = s.loadReservation then some (getReg s rs1, size) else none)
      (run : ∀ s, exec i s = storeConditional rd rs1 rs2 size s)
  | atomic (rd rs1 : Reg) (size : Nat) (src : State → Word) (f : Word → Word → Word) (h1 : 1 ≤ size) (h8 : size ≤ 8)
      (kind : Kind i (some rd) false false fun s => some (getReg s rs1, size))
      (run : ∀ s, exec i s = atomicUpdate rd rs1 size (src s) f s) (blind : ∀ u s, src (withHost u s) = src s)
  | ecall (ecall : isEcall i = true) (run : ∀ s, exec i s = syscall s)
  | raise (e : Fault) (ecall : isEcall i = false) (cause : Raises i e) (run : ∀ s, exec i s = .fault e)
  | refuse (r : Refusal) (ecall : isEcall i = false) (run : ∀ s, exec i s = .refused r)

/-- Every row of the opcode table calls one of the shared operations. -/
theorem exec_shape (i : Instr) : Shape i := by
  cases i
  case addi | slti | sltiu | xori | ori | andi | slli | srli | srai | addiw | slliw | srliw | sraiw | add | sub | sll |
      slt | sltu | xor | srl | sra | or | and | mul | mulh | mulhsu | mulhu | div | divu | rem | remu | addw | subw | sllw |
      srlw | sraw | mulw | divw | divuw | remw | remuw | lui | auipc | csrrw | csrrs | csrrc | csrrwi | csrrsi | csrrci =>
    exact .compute _ _ ⟨rfl, rfl, rfl, rfl, fun _ => rfl⟩ (fun _ => rfl) fun _ _ => rfl
  case ebreak | fence | fenceI | fpLoad | fpStore | fpOp | rsvSystem0 | rsvMiscmem =>
    exact .skip ⟨rfl, rfl, rfl, rfl, fun _ => rfl⟩ fun _ => rfl
  case beq | bne | blt | bge | bltu | bgeu =>
    exact .branch _ _ ⟨rfl, rfl, rfl, rfl, fun _ => rfl⟩ (fun _ => rfl) fun _ _ => rfl
  case jal | jalr => exact .jump _ _ ⟨rfl, rfl, rfl, rfl, fun _ => rfl⟩ (fun _ => rfl) fun _ _ => rfl
  case lb | lh | lw | ld | lbu | lhu | lwu | rsvLoad7 =>
    exact .load _ _ _ _ _ (by decide) (by decide) ⟨rfl, rfl, rfl, rfl, fun _ => rfl⟩ fun _ => rfl
  case sb | sh | sw | sd =>
    exact .store _ _ _ _ (by decide) (by decide) ⟨rfl, rfl, rfl, rfl, fun _ => rfl⟩ fun _ => rfl
  case lrW | lrD =>
    exact .loadReserved _ _ _ (by decide) (by decide) ⟨rfl, rfl, rfl, rfl, fun _ => rfl⟩ fun _ => rfl
  case scW | scD =>
    exact .storeConditional _ _ _ _ (by decide) (by decide) ⟨rfl, rfl, rfl, rfl, fun _ => rfl⟩ fun _ => rfl
  case amoswapW | amoaddW | amoxorW | amoandW | amoorW | amominW | amomaxW | amominuW | amomaxuW | amoswapD | amoaddD |
      amoxorD | amoandD | amoorD | amominD | amomaxD | amominuD | amomaxuD =>
    exact .atomic _ _ _ _ _ (by decide) (by decide) ⟨rfl, rfl, rfl, rfl, fun _ => rfl⟩ (fun _ => rfl) fun _ _ => rfl
  case ecall => exact .ecall rfl fun _ => rfl
  case rsvSystem4 => exact .raise _ rfl (.system4 ..) fun _ => rfl
  case rsvAmoSize => exact .raise _ rfl (.amoSize ..) fun _ => rfl
  case rsvAmoOp => exact .raise _ rfl (.amoOp ..) fun _ => rfl
  case rsvUnknown => exact .raise _ rfl (.unknown _) fun _ => rfl
  case rsvStore | rsvBranch | rsvOpImm | rsvOpImm32 | rsvOp | rsvOp32 | rsvAmoWidth => exact .refuse _ rfl fun _ => rfl

/-! ### The call of an ECALL (47_syscalls.md R260)

One equation per syscall number, then the few ways in which the calls use the state. -/

section
variable {s : State}

theorem syscall_exit (h : argA7 s = 93) : syscall s = sysExit s := by simp [syscall, h]
theorem syscall_exitGroup (h : argA7 s = 94) : syscall s = sysExitGroup s := by simp [syscall, h]
theorem syscall_brk (h : argA7 s = 214) : syscall s = sysBrk s := by simp [syscall, h]
theorem syscall_mmap (h : argA7 s = 222) : syscall s = sysMmap s := by simp [syscall, h]
theorem syscall_read (h : argA7 s = 63) : syscall s = sysRead s := by simp [syscall, h]
theorem syscall_write (h : argA7 s = 64) : syscall s = sysWrite s := by simp [syscall, h]
theorem syscall_fcntl (h : argA7 s = 25) : syscall s = sysFcntl s := by simp [syscall, h]
theorem syscall_openat (h : argA7 s = 56) : syscall s = sysOpenat s := by simp [syscall, h]
theorem syscall_schedGetaffinity (h : argA7 s = 123) : syscall s = sysSchedGetaffinity s := by simp [syscall, h]
theorem syscall_rtSigaction (h : argA7 s = 134) : syscall s = sysRtSigaction s := by simp [syscall, h]
theorem syscall_rtSigprocmask (h : argA7 s = 135) : syscall s = sysRtSigprocmask s := by simp [syscall, h]
theorem syscall_sigaltstack (h : argA7 s = 132) : syscall s = sysSigaltstack s := by simp [syscall, h]
theorem syscall_gettid (h : argA7 s = 178) : syscall s = sysGettid s := by simp [syscall, h]
theorem syscall_clockGettime (h : argA7 s = 113) : syscall s = sysClockGettime s := by simp [syscall, h]
theorem syscall_getrlimit (h : argA7 s = 163) : syscall s = sysGetrlimit s := by simp [syscall, h]

/-- The fifteen supported numbers (R277). -/
def syscallNumbers : List Word := [25, 56, 63, 64, 93, 94, 113, 123, 132, 134, 135, 163, 178, 214, 222]

theorem syscall_unknown (h : argA7 s ∉ syscallNumbers) : syscall s = .fault .unknownSyscall := by
  simp only [syscallNumbers, List.mem_cons, List.not_mem_nil, or_false, not_or] at h
  simp only [syscall, h, if_false, revert]

end

/-- What the call of an ECALL in `s` does, also when the host's fields are changed first. -/
inductive CallShape (s : State) : Prop
  | exit (num : argA7 s = 93 ∨ argA7 s = 94)
      (run : ∀ u, syscall (withHost u s) = exitWith (argA0 s) (withHost u s))
  | answer (n err : Word) (num : argA7 s ≠ 93 ∧ argA7 s ≠ 94)
      (run : ∀ u, syscall (withHost u s) = syscallReturn n err (withHost u s))
  | mmap (num : argA7 s = 222)
      (run : ∀ u, syscall (withHost u s) =
        syscallReturn s.heap 0 { withHost u s with heap := s.heap + roundToPage (argA1 s) })
  | store (value : Nat) (num : argA7 s = 113 ∨ argA7 s = 163)
      (run : ∀ u, syscall (withHost u s) =
        andThen (storeMem (withHost u s) (argA1 s) 16 value dataLeft dataRight) (syscallReturn 0 0))
  | readValue (num : argA7 s = 63) (fd : argA0 s = 5)
      (run : ∀ u, syscall (withHost u s) =
        andThen (readPreimageValue (withHost u s) (argA1 s) (argA2 s)) fun r => syscallReturn r.2 0 r.1)
  | writeKey (num : argA7 s = 64) (fd : argA0 s = 6)
      (run : ∀ u, syscall (withHost u s) =
        andThen (writePreimageKey (withHost u s) (argA1 s) (argA2 s)) fun r => syscallReturn r.2 0 r.1)
  | otherLimit (num : argA7 s = 163) (resource : argA0 s ≠ 7)
      (run : ∀ u, syscall (withHost u s) = .fault .unknownRlimit)
  | unknown (num : argA7 s ∉ syscallNumbers) (run : ∀ u, syscall (withHost u s) = .fault .unknownSyscall)

section
variable {s : State}

theorem sysMmap_shape (h : argA7 s = 222) : CallShape s := by
  have run (u) : syscall (withHost u s) = sysMmap (withHost u s) := syscall_mmap h
  by_cases h0 : argA0 s = 0
  · exact .mmap h fun u => (run u).trans (if_pos h0)
  · exact .answer (argA0 s) 0 (by simp [h]) fun u => (run u).trans (if_neg h0)

theorem sysFcntl_shape (h : argA7 s = 25) : CallShape s := by
  have run (u) : syscall (withHost u s) = sysFcntl (withHost u s) := syscall_fcntl h
  have num : argA7 s ≠ 93 ∧ argA7 s ≠ 94 := by simp [h]
  by_cases hcmd : argA1 s = 3
  case neg => exact .answer _ _ num fun u => (run u).trans (if_neg hcmd)
  have run (u) := (run u).trans (if_pos hcmd)
  by_cases hzero : argA0 s = 0 ∨ argA0 s = 3 ∨ argA0 s = 5
  · exact .answer _ _ num fun u => (run u).trans (if_pos hzero)
  have run (u) := (run u).trans (if_neg hzero)
  by_cases hone : argA0 s = 1 ∨ argA0 s = 2 ∨ argA0 s = 4 ∨ argA0 s = 6
  · exact .answer _ _ num fun u => (run u).trans (if_pos hone)
  · exact .answer _ _ num fun u => (run u).trans (if_neg hone)

theorem sysRead_shape (h : argA7 s = 63) : CallShape s := by
  have run (u) : syscall (withHost u s) = sysRead (withHost u s) := syscall_read h
  have num : argA7 s ≠ 93 ∧ argA7 s ≠ 94 := by simp [h]
  by_cases h0 : argA0 s = 0
  · exact .answer _ _ num fun u => (run u).trans (if_pos h0)
  have run (u) := (run u).trans (if_neg h0)
  by_cases h3 : argA0 s = 3
  · exact .answer (argA2 s) 0 num fun u => (run u).trans (if_pos h3)
  have run (u) := (run u).trans (if_neg h3)
  by_cases h5 : argA0 s = 5
  · exact .readValue h h5 fun u => (run u).trans (if_pos h5)
  · exact .answer _ _ num fun u => (run u).trans (if_neg h5)

theorem sysWrite_shape (h : argA7 s = 64) : CallShape s := by
  have run (u) : syscall (withHost u s) = sysWrite (withHost u s) := syscall_write h
  have num : argA7 s ≠ 93 ∧ argA7 s ≠ 94 := by simp [h]
  by_cases h124 : argA0 s = 1 ∨ argA0 s = 2 ∨ argA0 s = 4
  · exact .answer (argA2 s) 0 num fun u => (run u).trans (if_pos h124)
  have run (u) := (run u).trans (if_neg h124)
  by_cases h6 : argA0 s = 6
  · exact .writeKey h h6 fun u => (run u).trans (if_pos h6)
  · exact .answer _ _ num fun u => (run u).trans (if_neg h6)

theorem sysGetrlimit_shape (h : argA7 s = 163) : CallShape s := by
  have run (u) : syscall (withHost u s) = sysGetrlimit (withHost u s) := syscall_getrlimit h
  by_cases h7 : argA0 s = 7
  · exact .store _ (.inr h) fun u => (run u).trans (if_neg (not_not.mpr h7))
  · exact .otherLimit h h7 fun u => (run u).trans (if_pos h7)

end

/-- Every call is of one of these shapes. -/
theorem syscall_shape (s : State) : CallShape s := by
  by_cases hmem : argA7 s ∈ syscallNumbers
  case neg => exact .unknown hmem fun _ => syscall_unknown hmem
  simp only [syscallNumbers, List.mem_cons, List.not_mem_nil, or_false] at hmem
  rcases hmem with h | h | h | h | h | h | h | h | h | h | h | h | h | h | h
  · exact sysFcntl_shape h
  · exact .answer _ _ (by simp [h]) fun _ => syscall_openat h
  · exact sysRead_shape h
  · exact sysWrite_shape h
  · exact .exit (.inl h) fun _ => syscall_exit h
  · exact .exit (.inr h) fun _ => syscall_exitGroup h
  · exact .store _ (.inl h) fun _ => syscall_clockGettime h
  · exact .answer _ _ (by simp [h]) fun _ => syscall_schedGetaffinity h
  · exact .answer _ _ (by simp [h]) fun _ => syscall_sigaltstack h
  · exact .answer _ _ (by simp [h]) fun _ => syscall_rtSigaction h
  · exact .answer _ _ (by simp [h]) fun _ => syscall_rtSigprocmask h
  · exact sysGetrlimit_shape h
  · exact .answer _ _ (by simp [h]) fun _ => syscall_gettid h
  · exact .answer _ _ (by simp [h]) fun _ => syscall_brk h
  · exact sysMmap_shape h

end Sys2Proof.Machine

/-! What an instruction that completes may have changed (10_state.md R45, 30_encoding.md R115, 47_syscalls.md R278), per
operation, and the statements about frames and about the pc. -/

namespace Sys2Proof.Machine

/-! ### Stores -/

/-- `s'` is `s` after a store of `size` bytes at `addr`; with no calldata prepared the root is that of the new memory. -/
def Stored (s : State) (addr : Word) (size : Nat) (s' : State) : Prop :=
  ∃ f r, s' = { s with mem := s.mem.store addr f size, root := r } ∧ (s.inputs = [] → r = .ofMemory)

theorem setMemoryB32_next_root {s s' : State} {addr : Word} {leaf : Bytes32} {p : Nat} {m : Memory}
    (h : setMemoryB32 s addr leaf p m = .next s') (hi : s.inputs = []) : s'.root = .ofMemory := by
  unfold setMemoryB32 at h
  simp only [hi] at h
  split at h
  · cases h
  · split at h
    · cases h
    · cases h
      rfl

theorem patchMemory_stored {s s' : State} {addr : Word} {off n : Nat} {f : Nat → Byte} {p : Nat}
    (h : patchMemory s addr off n f p = .next s') : Stored s (addr + BitVec.ofNat 64 off) n s' := by
  obtain ⟨leaf, -, hset⟩ := andThen_eq_next.mp h
  exact ⟨f, s'.root, patchMemory_next h, setMemoryB32_next_root hset⟩

theorem storeMem_stored {s s' : State} {addr : Word} {size value pL pR : Nat} (h1 : 1 ≤ size) (hs : size ≤ 32)
    (h : storeMem s addr size value pL pR = .next s') : Stored s addr size s' := by
  refine ⟨valueByte value, s'.root, storeMem_next h1 hs h, fun hi => ?_⟩
  obtain ⟨t, hleft, hright⟩ := andThen_eq_next.mp h
  obtain ⟨f, r, rfl, hroot⟩ := patchMemory_stored hleft
  split_ifs at hright
  · cases hright
    exact hroot hi
  · obtain ⟨_, _, hs', hroot'⟩ := patchMemory_stored hright
    rw [hs']
    exact hroot' hi

/-! ### Instructions other than ECALL -/

/-- What an instruction other than ECALL may have changed where it answers `s'`. -/
structure Effect (i : Instr) (s s' : State) : Prop where
  frame : s' = { s with
    regs := s'.regs, pc := s'.pc, loadReservation := s'.loadReservation, mem := s'.mem, root := s'.root }
  regs : s'.regs = s.regs ∨ ∃ rd v, destination i = some rd ∧ s'.regs = writeReg s.regs rd v
  reservation : isReservationOp i = false → s'.loadReservation = s.loadReservation
  pc : isControlTransfer i = false → s'.pc = s.pc + 4
  memory : (storeTarget i s = none ∧ s'.mem = s.mem ∧ s'.root = s.root) ∨
    ∃ addr size t, storeTarget i s = some (addr, size) ∧ Stored s addr size t ∧ s'.mem = t.mem ∧ s'.root = t.root

section
variable {i : Instr} {s s' : State}

theorem writeBack_effect {rd : Reg} {v : Word} (kind : Kind i (some rd) false false fun _ => none)
    (h : writeBack rd v s = .next s') : Effect i s s' := by
  cases h
  exact ⟨rfl, .inr ⟨rd, v, kind.dest, rfl⟩, fun _ => rfl, fun _ => rfl, .inl ⟨kind.target s, rfl, rfl⟩⟩

theorem noOperation_effect (kind : Kind i none false false fun _ => none) (h : noOperation s = .next s') :
    Effect i s s' := by
  cases h
  exact ⟨rfl, .inl rfl, fun _ => rfl, fun _ => rfl, .inl ⟨kind.target s, rfl, rfl⟩⟩

theorem branchIf_effect {taken : Bool} {imm : BitVec 13} (kind : Kind i none false true fun _ => none)
    (h : branchIf taken imm s = .next s') : Effect i s s' := by
  rw [branchIf_eq Iff.rfl] at h
  cases h
  exact ⟨rfl, .inl rfl, fun _ => rfl, by simp [kind.control], .inl ⟨kind.target s, rfl, rfl⟩⟩

theorem jumpTo_effect {rd : Reg} {target : Word} (kind : Kind i (some rd) false true fun _ => none)
    (h : jumpTo rd target s = .next s') : Effect i s s' := by
  cases h
  exact ⟨rfl, .inr ⟨rd, _, kind.dest, rfl⟩, fun _ => rfl, by simp [kind.control], .inl ⟨kind.target s, rfl, rfl⟩⟩

theorem loadInto_effect {rd : Reg} {addr : Word} {size : Nat} {signed : Bool}
    (kind : Kind i (some rd) false false fun _ => none) (h : loadInto rd addr size signed s = .next s') :
    Effect i s s' := by
  obtain ⟨v, -, h⟩ := andThen_eq_next.mp h
  exact writeBack_effect kind h

theorem storeFrom_effect {addr : Word} {size value : Nat} (h1 : 1 ≤ size) (h8 : size ≤ 8) {dest : Option Reg}
    {target : State → Option (Word × Nat)} (kind : Kind i dest false false target)
    (ht : target s = some (addr, size)) (h : storeFrom addr size value s = .next s') : Effect i s s' := by
  obtain ⟨t, hstore, h⟩ := andThen_eq_next.mp h
  have hst := storeMem_stored h1 (by omega) hstore
  cases h
  obtain ⟨f, r, rfl, hroot⟩ := hst
  exact ⟨rfl, .inl rfl, fun _ => rfl, fun _ => rfl,
    .inr ⟨addr, size, _, (kind.target s).trans ht, ⟨f, r, rfl, hroot⟩, rfl, rfl⟩⟩

theorem loadReserved_effect {rd rs1 : Reg} {size : Nat} (kind : Kind i (some rd) true false fun _ => none)
    (h : loadReserved rd rs1 size s = .next s') : Effect i s s' := by
  obtain ⟨v, -, h⟩ := andThen_eq_next.mp h
  cases h
  exact ⟨rfl, .inr ⟨rd, v, kind.dest, rfl⟩, by simp [kind.reservation], fun _ => rfl,
    .inl ⟨kind.target s, rfl, rfl⟩⟩

theorem storeConditional_effect {rd rs1 rs2 : Reg} {size : Nat} (h1 : 1 ≤ size) (h8 : size ≤ 8)
    (kind : Kind i (some rd) true false fun s =>
      if getReg s rs1 = s.loadReservation then some (getReg s rs1, size) else none)
    (h : storeConditional rd rs1 rs2 size s = .next s') : Effect i s s' := by
  have htarget := kind.target s
  unfold storeConditional at h
  split_ifs at h htarget
  · obtain ⟨t, hstore, h⟩ := andThen_eq_next.mp h
    have hst := storeMem_stored h1 (by omega) hstore
    cases h
    obtain ⟨f, r, rfl, hroot⟩ := hst
    exact ⟨rfl, .inr ⟨rd, _, kind.dest, rfl⟩, by simp [kind.reservation], fun _ => rfl,
      .inr ⟨_, _, _, htarget, ⟨f, r, rfl, hroot⟩, rfl, rfl⟩⟩
  · cases h
    exact ⟨rfl, .inr ⟨rd, _, kind.dest, rfl⟩, by simp [kind.reservation], fun _ => rfl, .inl ⟨htarget, rfl, rfl⟩⟩

theorem atomicUpdate_effect {rd rs1 : Reg} {size : Nat} {src : Word} {f : Word → Word → Word} (h1 : 1 ≤ size)
    (h8 : size ≤ 8) (kind : Kind i (some rd) false false fun s => some (getReg s rs1, size))
    (h : atomicUpdate rd rs1 size src f s = .next s') : Effect i s s' := by
  obtain ⟨old, -, h⟩ := andThen_eq_next.mp h
  obtain ⟨t, hstore, h⟩ := andThen_eq_next.mp h
  have hst := storeMem_stored h1 (by omega) hstore
  cases h
  obtain ⟨g, r, rfl, hroot⟩ := hst
  exact ⟨rfl, .inr ⟨rd, _, kind.dest, rfl⟩, fun _ => rfl, fun _ => rfl,
    .inr ⟨_, _, _, kind.target s, ⟨g, r, rfl, hroot⟩, rfl, rfl⟩⟩

/-- The effect of an instruction that is no ECALL, operation by operation. -/
theorem exec_effect (hi : isEcall i = false) (h : exec i s = .next s') : Effect i s s' := by
  cases exec_shape i with
  | compute rd v kind run blind => exact writeBack_effect kind (run s ▸ h)
  | skip kind run => exact noOperation_effect kind (run s ▸ h)
  | branch taken imm kind run blind => exact branchIf_effect kind (run s ▸ h)
  | jump rd target kind run blind => exact jumpTo_effect kind (run s ▸ h)
  | load rd rs1 imm size signed h1 h8 kind run => exact loadInto_effect kind (run s ▸ h)
  | store rs1 rs2 imm size h1 h8 kind run => exact storeFrom_effect h1 h8 kind rfl (run s ▸ h)
  | loadReserved rd rs1 size h1 h8 kind run => exact loadReserved_effect kind (run s ▸ h)
  | storeConditional rd rs1 rs2 size h1 h8 kind run => exact storeConditional_effect h1 h8 kind (run s ▸ h)
  | atomic rd rs1 size src f h1 h8 kind run blind => exact atomicUpdate_effect h1 h8 kind (run s ▸ h)
  | ecall hecall run => rw [hi] at hecall; cases hecall
  | raise e hecall cause run => rw [run s] at h; cases h
  | refuse r hecall run => rw [run s] at h; cases h

end

/-! ### ECALL -/

/-- What a call may have changed before it gives its result back in x10 and x11. -/
inductive CallEffect (s : State) : State → Prop
  | nothing : CallEffect s s
  | heap (num : argA7 s = 222) (v : Word) : CallEffect s { s with heap := v }
  | key (num : argA7 s = 64) (k : Bytes32) : CallEffect s { s with preimageKey := k, preimageOffset := 0 }
  | stored {t : State} (num : argA7 s = 113 ∨ argA7 s = 163) (h : Stored s (argA1 s) 16 t) : CallEffect s t
  | value {t : State} (num : argA7 s = 63) (fd : argA0 s = 5) (n : Nat) (hn : n ≤ clippedCount (argA1 s) (argA2 s))
      (h : Stored s (argA1 s) n t) (offset : Word) : CallEffect s { t with preimageOffset := offset }

section
variable {s s' : State}

/-- `syscallReturn` writes x10, x11 and the pc, and nothing else (R261). -/
theorem syscallReturn_eq (n err : Word) (s : State) : syscallReturn n err s = .next (withReturn s n err) := rfl

/-- A read of the pre-image that completes: at the end nothing, else a store of the clipped count at most (R282). -/
theorem readPreimageValue_effect {r : State × Word} (num : argA7 s = 63) (fd : argA0 s = 5)
    (h : readPreimageValue s (argA1 s) (argA2 s) = .next r) : CallEffect s r.1 := by
  unfold readPreimageValue at h
  split at h
  · cases h
  · split_ifs at h
    · cases h
      exact .nothing
    · obtain ⟨t, hpatch, h⟩ := andThen_eq_next.mp h
      have hst := patchMemory_stored hpatch
      rw [leafBase_add_leafOffset] at hst
      cases h
      exact .value num fd _ (min_le_left _ _) hst _

/-- A call that completes ends the guest, or gives a result back after one of the effects. -/
theorem syscall_effect (h : syscall s = .next s') :
    ((argA7 s = 93 ∨ argA7 s = 94) ∧ s' = { s with exitCode := (argA0 s).setWidth 8, exited := 1 }) ∨
      (argA7 s ≠ 93 ∧ argA7 s ≠ 94) ∧ ∃ t n err, CallEffect s t ∧ s' = withReturn t n err := by
  cases syscall_shape s with
  | exit num run =>
    cases (run (hostFields s)).symm.trans h
    exact .inl ⟨num, rfl⟩
  | answer n err num run =>
    cases (run (hostFields s)).symm.trans h
    exact .inr ⟨num, s, n, err, .nothing, rfl⟩
  | mmap num run =>
    cases (run (hostFields s)).symm.trans h
    exact .inr ⟨by simp [num], _, _, _, .heap num _, rfl⟩
  | store value num run =>
    obtain ⟨t, hstore, ht⟩ := andThen_eq_next.mp ((run (hostFields s)).symm.trans h)
    cases ht
    exact .inr ⟨by rcases num with num | num <;> simp [num], t, _, _,
      .stored num (storeMem_stored (by decide) (by decide) hstore), rfl⟩
  | readValue num fd run =>
    obtain ⟨r, hread, hr⟩ := andThen_eq_next.mp ((run (hostFields s)).symm.trans h)
    cases hr
    exact .inr ⟨by simp [num], r.1, _, _, readPreimageValue_effect num fd hread, rfl⟩
  | writeKey num fd run =>
    obtain ⟨r, hwrite, hr⟩ := andThen_eq_next.mp ((run (hostFields s)).symm.trans h)
    obtain ⟨leaf, -, hleaf⟩ := andThen_eq_next.mp hwrite
    cases hr
    cases hleaf
    exact .inr ⟨by simp [num], _, _, _, .key num _, rfl⟩
  | otherLimit num resource run => cases (run (hostFields s)).symm.trans h
  | unknown num run => cases (run (hostFields s)).symm.trans h

/-- The fields that no effect of a call reaches. -/
theorem CallEffect.frame (h : CallEffect s s') :
    s' = { s with
      heap := s'.heap, preimageKey := s'.preimageKey, preimageOffset := s'.preimageOffset, mem := s'.mem
      root := s'.root } := by
  cases h with
  | nothing => rfl
  | heap num v => rfl
  | key num k => rfl
  | stored num hst => obtain ⟨f, r, rfl, -⟩ := hst; rfl
  | value num fd n hn hst offset => obtain ⟨f, r, rfl, -⟩ := hst; rfl

/-- What the memory is after a call, and where its root is kept. -/
theorem CallEffect.memory (h : CallEffect s s') :
    (s'.mem = s.mem ∧ s'.root = s.root) ∨ ∃ addr n t, Stored s addr n t ∧ s'.mem = t.mem ∧ s'.root = t.root := by
  cases h with
  | nothing => exact .inl ⟨rfl, rfl⟩
  | heap num v => exact .inl ⟨rfl, rfl⟩
  | key num k => exact .inl ⟨rfl, rfl⟩
  | stored num hst => exact .inr ⟨_, _, _, hst, rfl, rfl⟩
  | value num fd n hn hst offset => exact .inr ⟨_, _, _, hst, rfl, rfl⟩

end

/-! ### Frames -/

section
variable {i : Instr} {s s' : State}

theorem Stored.read_outside {addr : Word} {size a : Nat} (h : Stored s addr size s') (ha : Outside a addr size) :
    s'.mem.read a = s.mem.read a := by
  obtain ⟨f, r, rfl, -⟩ := h
  exact read_store_other s.mem addr f size a ha

theorem getReg_of_writeReg {rd r : Reg} {v : Word} (h : s'.regs = writeReg s.regs rd v) (hr : r ≠ rd) :
    getReg s' r = getReg s r :=
  (getReg_congr (t := setReg s rd v) h r).trans (getReg_setReg_other s rd r v hr)

/-- An ECALL that completes leaves a register other than x10 and x11 alone. -/
theorem getReg_of_syscall (h : syscall s = .next s') {r : Reg} (h10 : r ≠ 10) (h11 : r ≠ 11) :
    getReg s' r = getReg s r := by
  obtain ⟨-, rfl⟩ | ⟨-, t, n, err, ht, rfl⟩ := syscall_effect h
  · rfl
  · calc getReg (withReturn t n err) r = getReg (setReg t 10 n) r := getReg_setReg_other (setReg t 10 n) 11 r err h11
      _ = getReg t r := getReg_setReg_other t 10 r n h10
      _ = getReg s r := getReg_congr (by rw [ht.frame]) r

theorem eq_ecall_of_isEcall (hi : isEcall i = true) : ∃ rd rs1, i = .ecall rd rs1 := by
  cases i <;> simp [isEcall] at hi ⊢

theorem exec_of_isEcall (hi : isEcall i = true) (s : State) : exec i s = syscall s := by
  obtain ⟨rd, rs1, rfl⟩ := eq_ecall_of_isEcall hi
  rfl

theorem regs_slot_zero_of_effect (h : Effect i s s') : s'.regs[0] = s.regs[0] := by
  rcases h.regs with hr | ⟨rd, v, -, hr⟩
  · rw [hr]
  · rw [hr, writeReg_slot_zero]

/-- No instruction writes the stored x0 slot (R31). -/
theorem exec_regs_slot_zero (h : exec i s = .next s') : s'.regs[0] = s.regs[0] := by
  cases hi : isEcall i with
  | false => exact regs_slot_zero_of_effect (exec_effect hi h)
  | true =>
    rw [exec_of_isEcall hi] at h
    obtain ⟨-, rfl⟩ | ⟨-, t, n, err, ht, rfl⟩ := syscall_effect h
    · rfl
    · calc (withReturn t n err).regs[0] = t.regs[0] := by
            rw [withReturn, writeReg_slot_zero, writeReg_slot_zero]
        _ = s.regs[0] := by rw [ht.frame]

/-- The fields that no call reaches. -/
theorem syscall_frame (h : syscall s = .next s') :
    s'.loadReservation = s.loadReservation ∧ s'.stepCounter = s.stepCounter ∧ s'.inputs = s.inputs ∧
      s'.oracleTable = s.oracleTable ∧ s'.stateHash = s.stateHash := by
  obtain ⟨-, rfl⟩ | ⟨-, t, n, err, ht, rfl⟩ := syscall_effect h
  · exact ⟨rfl, rfl, rfl, rfl, rfl⟩
  · rw [ht.frame]
    exact ⟨rfl, rfl, rfl, rfl, rfl⟩

/-- Settles O28: the frame of an instruction other than ECALL is its `Effect`; an ECALL writes x10 and x11 and has one of
the effects of a call. -/
theorem whoWritesWhat : Obligations.WhoWritesWhat := by
  intro i s s' h
  cases hi : isEcall i with
  | false =>
    have he := exec_effect hi h
    have hf := he.frame
    refine ⟨?registers, exec_regs_slot_zero h, he.reservation, fun _ => ?fields, ?_, ?_, ?_, ?_, ?unstored, ?stored⟩
    case registers =>
      intro r hr _
      rcases he.regs with hregs | ⟨rd, v, hd, hregs⟩
      · exact getReg_congr hregs r
      · exact getReg_of_writeReg hregs fun hrd => hr (hrd ▸ hd)
    case fields => rw [hf]; exact ⟨rfl, rfl, rfl, rfl, rfl⟩
    case unstored =>
      intro _ hnone
      rcases he.memory with ⟨-, hm, hr⟩ | ⟨addr, size, t, hsome, -⟩
      · exact ⟨hm, hr, memRoot_congr hr hm⟩
      · rw [hnone] at hsome; cases hsome
    case stored =>
      intro addr size htarget a ha
      rcases he.memory with ⟨hnone, -⟩ | ⟨addr', size', t, hsome, hst, hm, -⟩
      · rw [hnone] at htarget; cases htarget
      · cases htarget.symm.trans hsome
        rw [hm, hst.read_outside ha]
    all_goals rw [hf]
  | true =>
    obtain ⟨rd, rs1, rfl⟩ := eq_ecall_of_isEcall hi
    obtain ⟨hreservation, hstep, hinputs, htable, hhash⟩ := syscall_frame h
    exact ⟨fun r _ hr => getReg_of_syscall h (hr rfl).1 (hr rfl).2, exec_regs_slot_zero h, fun _ => hreservation, nofun,
      hstep, hinputs, htable, hhash, nofun, nofun⟩

theorem Outside.mono {a : Nat} {addr : Word} {m n : Nat} (h : Outside a addr n) (hmn : m ≤ n) : Outside a addr m :=
  fun j hj => h j (by omega)

/-- Settles O29: each effect of a call belongs to the numbers that the statement excepts for its fields. -/
theorem ecallFrame : Obligations.EcallFrame := by
  intro rd rs1 s s' h
  obtain ⟨hnum, rfl⟩ | ⟨hnum, t, n, err, ht, rfl⟩ := syscall_effect h
  · exact ⟨fun h93 h94 => (hnum.elim h93 h94).elim, fun _ => rfl, fun _ => rfl, fun _ _ => rfl,
      fun _ _ _ => ⟨rfl, rfl, rfl⟩, fun _ _ _ => rfl, fun _ _ _ => rfl⟩
  cases ht with
  | nothing =>
    exact ⟨fun _ _ => ⟨rfl, rfl⟩, fun _ => rfl, fun _ => rfl, fun _ _ => rfl, fun _ _ _ => ⟨rfl, rfl, rfl⟩,
      fun _ _ _ => rfl, fun _ _ _ => rfl⟩
  | heap num v =>
    exact ⟨fun _ _ => ⟨rfl, rfl⟩, fun h222 => (h222 num).elim, fun _ => rfl, fun _ _ => rfl,
      fun _ _ _ => ⟨rfl, rfl, rfl⟩, fun _ _ _ => rfl, fun _ _ _ => rfl⟩
  | key num k =>
    exact ⟨fun _ _ => ⟨rfl, rfl⟩, fun _ => rfl, fun h64 => (h64 num).elim, fun h64 => (h64 num).elim,
      fun _ _ _ => ⟨rfl, rfl, rfl⟩, fun _ _ _ => rfl, fun _ _ _ => rfl⟩
  | stored num hst =>
    refine ⟨?_, ?_, ?_, ?_, fun h113 h163 => (num.elim h113 h163).elim, fun _ a ha => hst.read_outside ha,
      fun h63 => by rw [argA7, h63] at num; exact absurd num (by decide)⟩
    all_goals obtain ⟨f, r, rfl, -⟩ := hst
    · exact fun _ _ => ⟨rfl, rfl⟩
    · exact fun _ => rfl
    · exact fun _ => rfl
    · exact fun _ _ => rfl
  | value num fd n hn hst offset =>
    have hcount : clippedCount (argA1 s) (argA2 s) =
        min (getReg s 12).toNat (32 - (getReg s 11).toNat % 32) := by rw [clippedCount, leafOffset_eq, argA1, argA2]
    refine ⟨?_, ?_, ?_, fun _ h63 => (h63 num).elim, fun _ _ h635 => (h635 ⟨num, fd⟩).elim,
      fun h => by rw [show getReg s 17 = 63 from num] at h; exact absurd h (by decide),
      fun _ a ha => hst.read_outside (ha.mono (hcount ▸ hn))⟩
    all_goals obtain ⟨f, r, rfl, -⟩ := hst
    · exact fun _ _ => ⟨rfl, rfl⟩
    · exact fun _ => rfl
    · exact fun _ => rfl

/-- Settles O30: the pc of an `Effect`; a call leaves the pc to exit and advances it where it gives a result back. -/
theorem pcAdvances : Obligations.PcAdvances := by
  intro i s s' h hcontrol
  cases hi : isEcall i with
  | false => exact ⟨fun _ => (exec_effect hi h).pc hcontrol, nofun⟩
  | true =>
    rw [exec_of_isEcall hi] at h
    obtain ⟨hnum, rfl⟩ | ⟨hnum, t, n, err, ht, rfl⟩ := syscall_effect h
    · exact ⟨fun hne => (hne ⟨rfl, hnum⟩).elim, fun _ _ => rfl⟩
    · refine ⟨fun _ => ?_, fun _ hexit => (hexit.elim hnum.1 hnum.2).elim⟩
      rw [ht.frame]
      rfl

/-! ### The invariants of a step (R34, R35) -/

/-- The memory after an instruction: as it was, or after one store. -/
theorem exec_memory (h : exec i s = .next s') :
    (s'.mem = s.mem ∧ s'.root = s.root) ∨ ∃ addr n t, Stored s addr n t ∧ s'.mem = t.mem ∧ s'.root = t.root := by
  cases hi : isEcall i with
  | false =>
    rcases (exec_effect hi h).memory with ⟨-, hm⟩ | ⟨addr, size, t, -, hst⟩
    · exact .inl hm
    · exact .inr ⟨addr, size, t, hst⟩
  | true =>
    rw [exec_of_isEcall hi] at h
    obtain ⟨-, rfl⟩ | ⟨-, t, n, err, ht, rfl⟩ := syscall_effect h
    · exact .inl ⟨rfl, rfl⟩
    · exact ht.memory

/-- An instruction keeps the canonical form of the memory. -/
theorem exec_mem_wf (h : exec i s = .next s') (hwf : s.mem.wf) : s'.mem.wf := by
  rcases exec_memory h with ⟨hm, -⟩ | ⟨addr, n, t, ⟨f, r, rfl, -⟩, hm, -⟩
  · rwa [hm]
  · rw [hm]
    exact store_wf s.mem addr f n hwf

/-- With an honest host `memRoot` stays the root of the memory: it is not touched, or it is that of the memory stored. -/
theorem exec_honestHost (h : exec i s = .next s') (hh : HonestHost s) : HonestHost s' := by
  obtain ⟨hinputs, hcommitted⟩ := hh
  obtain ⟨-, -, -, -, -, hin, -⟩ := whoWritesWhat i s s' h
  refine ⟨hin.trans hinputs, ?_⟩
  rcases exec_memory h with ⟨hm, hr⟩ | ⟨addr, n, t, ⟨f, r, rfl, hroot⟩, hm, hr⟩
  · rw [Committed, memRoot_congr hr hm, hm]
    exact hcommitted
  · exact memRoot_ofMemory (hr.trans (hroot hinputs))

/-- An instruction leaves `exited` alone or sets it. -/
theorem exec_exited (h : exec i s = .next s') : s'.exited = s.exited ∨ s'.exited = 1 := by
  cases hi : isEcall i with
  | false => exact .inl (by rw [(exec_effect hi h).frame])
  | true =>
    rw [exec_of_isEcall hi] at h
    obtain ⟨-, rfl⟩ | ⟨-, t, n, err, ht, rfl⟩ := syscall_effect h
    · exact .inr rfl
    · exact .inl (by rw [ht.frame]; rfl)

/-- An instruction keeps (a) and (b) of a well-formed record. -/
theorem exec_wellFormedRecord (h : exec i s = .next s') (hwf : WellFormedRecord s.toRecord) :
    WellFormedRecord s'.toRecord := by
  obtain ⟨hx0, hexited⟩ := hwf
  refine ⟨(exec_regs_slot_zero h).trans hx0, ?_⟩
  rcases exec_exited h with he | he
  · exact he ▸ hexited
  · exact .inr he

end

section
variable {s s1 s' : State}

theorem deliverInput_mem (h : deliverInput s = .next s1) : s1.mem = s.mem := by
  unfold deliverInput at h
  split at h
  · split at h <;> (cases h; rfl)
  · split_ifs at h
    cases h
    rfl

/-- With no calldata prepared the record comes in as it is, but for the step counter (R46). -/
theorem deliverInput_of_no_inputs (h : deliverInput s = .next s1) (hi : s.inputs = []) :
    ∃ c, s1 = { s with stepCounter := c } := by
  unfold deliverInput at h
  split at h
  · split at h <;> (cases h; exact ⟨_, rfl⟩)
  · rename_i hcons
    rw [hi] at hcons
    cases hcons

/-- A step keeps a well-formed record, and an exited record stays exited. -/
theorem step_wellFormedRecord (h1 : deliverInput s = .next s1) (hwf : WellFormedRecord s1.toRecord)
    (h : step s = .next s') : WellFormedRecord s'.toRecord ∧ (s1.exited = 1 → s'.exited = 1) := by
  obtain ⟨t, ht, ⟨he, rfl⟩ | ⟨he, -, w, s2, -, hexec, rfl⟩⟩ := step_next_cases h <;> cases h1.symm.trans ht
  · exact ⟨hwf, id⟩
  · have hwf2 := exec_wellFormedRecord hexec hwf
    exact ⟨hwf2, fun h1' => by rw [he] at h1'; simp at h1'⟩

theorem step_mem_wf (h : step s = .next s') (hwf : s.mem.wf) : s'.mem.wf := by
  obtain ⟨s1, h1, ⟨-, rfl⟩ | ⟨-, -, w, s2, -, hexec, rfl⟩⟩ := step_next_cases h
  · rwa [deliverOutput_mem, deliverInput_mem h1]
  · rw [deliverOutput_mem]
    exact exec_mem_wf hexec (by rwa [deliverInput_mem h1])

theorem deliverOutput_honestHost (h : HonestHost s) : HonestHost (deliverOutput s) := by
  obtain ⟨hinputs, hcommitted⟩ := h
  exact ⟨by rw [deliverOutput_inputs, hinputs, List.tail_nil], hcommitted⟩

theorem deliverInput_honestHost (h1 : deliverInput s = .next s1) (h : HonestHost s) : HonestHost s1 := by
  obtain ⟨c, rfl⟩ := deliverInput_of_no_inputs h1 h.1
  exact h

theorem step_honestHost (h : step s = .next s') (hh : HonestHost s) : HonestHost s' := by
  obtain ⟨s1, h1, ⟨-, rfl⟩ | ⟨-, -, w, s2, -, hexec, rfl⟩⟩ := step_next_cases h
  · exact deliverOutput_honestHost (deliverInput_honestHost h1 hh)
  · exact deliverOutput_honestHost (exec_honestHost hexec (deliverInput_honestHost h1 hh))

end

/-- Settles O4: the record part from the instruction that ran, the memory part from its stores. -/
theorem stepKeepsWellFormed : Obligations.StepKeepsWellFormed :=
  ⟨fun _ _ _ => step_wellFormedRecord, fun _ _ hwf h => step_mem_wf h hwf⟩

/-- Settles O3: the three parts of the invariant, each kept by every step. -/
theorem stepKeepsInv : Obligations.StepKeepsInv := by
  rintro s s' ⟨hrecord, hmem, hhonest⟩ h
  obtain ⟨s1, h1, -⟩ := step_next_cases h
  obtain ⟨c, hs1⟩ := deliverInput_of_no_inputs h1 hhonest.1
  exact ⟨(step_wellFormedRecord h1 (hs1 ▸ hrecord) h).1, step_mem_wf h hmem, step_honestHost h hhonest⟩

end Sys2Proof.Machine

/-! The two leaf primitives (20_memory.md R63 to R65), one equation per case: the address no leaf address, no calldata
prepared, calldata prepared. -/

namespace Sys2Proof.Machine

section
variable {s : State} {addr : Word} {leaf : Bytes32} {p : Nat} {m : Memory} {calldata : List Byte}
  {rest : List (List Byte)}

theorem getMemoryB32_unaligned (ha : addr &&& 31#64 ≠ 0) : getMemoryB32 s addr p = .fault .unalignedMerkle := by
  rw [getMemoryB32, if_pos ha, revert]

theorem setMemoryB32_unaligned (ha : addr &&& 31#64 ≠ 0) : setMemoryB32 s addr leaf p m = .fault .unalignedMerkle := by
  rw [setMemoryB32, if_pos ha, revert]

theorem getMemoryB32_unprepared (ha : addr &&& 31#64 = 0) (hin : s.inputs = []) :
    getMemoryB32 s addr p = if p = noProof then .refused .noProofProvided
      else if s.memRoot = merkleRoot s.mem then .next (leafAt s.mem (leafIndex addr)) else .fault .badProof := by
  rw [getMemoryB32, if_neg (not_not.mpr ha)]
  simp only [hin, honestRead_iff, revert]

theorem setMemoryB32_unprepared (ha : addr &&& 31#64 = 0) (hin : s.inputs = []) :
    setMemoryB32 s addr leaf p m = if p = noProof then .refused .noProofProvided else .next (commitMemory s m) := by
  rw [setMemoryB32, if_neg (not_not.mpr ha)]
  simp only [hin]

theorem getMemoryB32_prepared (ha : addr &&& 31#64 = 0) (hin : s.inputs = calldata :: rest) :
    getMemoryB32 s addr p = andThen (proofBlock calldata p) fun block =>
      if foldRoot block.1 block.2 (leafIndex addr) = s.memRoot then .next block.1 else .fault .badProof := by
  rw [getMemoryB32, if_neg (not_not.mpr ha)]
  simp only [hin, revert]

theorem setMemoryB32_prepared (ha : addr &&& 31#64 = 0) (hin : s.inputs = calldata :: rest) :
    setMemoryB32 s addr leaf p m = andThen (proofBlock calldata p) fun block =>
      .next { s with mem := m, root := .digest (foldRoot leaf block.2 (leafIndex addr)) } := by
  rw [setMemoryB32, if_neg (not_not.mpr ha)]
  simp only [hin]

end

section
variable {calldata : List Byte} {p : Nat}

theorem proofBlock_noProof : proofBlock calldata noProof = .refused .noProofProvided := if_pos rfl

theorem proofBlock_missing (hp : p ≠ noProof) (hlen : calldata.length < blockStart p + 32 * 60) :
    proofBlock calldata p = .refused .missingProof := by
  rw [proofBlock, if_neg hp, if_pos hlen]

theorem proofBlock_present (hp : p ≠ noProof) (hlen : blockStart p + 32 * 60 ≤ calldata.length) :
    proofBlock calldata p = .next (bytes32At calldata (blockStart p),
      (List.range merkleDepth).map fun i => bytes32At calldata (blockStart p + 32 * (1 + i))) := by
  rw [proofBlock, if_neg hp, if_neg (by omega)]

end

/-- The step of the walk by a path bit (R64). -/
theorem foldRoot_cons (node sib : Bytes32) (sibs : List Bytes32) (path : Nat) :
    foldRoot node (sib :: sibs) path =
      foldRoot (keccak256 (if path.testBit 0 then bytes32List sib ++ bytes32List node
        else bytes32List node ++ bytes32List sib)) sibs (path >>> 1) := by
  rw [foldRoot, Nat.shiftRight_one, Nat.testBit_zero]
  rcases Nat.mod_two_eq_zero_or_one path with h | h <;> simp [h, hashPair]

/-- Settles O14: the walk, the value of `memRoot`, and the cases of the two primitives. -/
theorem leafPrimitives : Obligations.LeafPrimitives := by
  refine ⟨fun node sib sibs path => ⟨rfl, foldRoot_cons node sib sibs path⟩, fun s b => ⟨rfl, rfl⟩, ?unprepared,
    ?prepared⟩
  case unprepared =>
    intro s addr p newLeaf m hin
    refine ⟨fun ha => ⟨getMemoryB32_unaligned ha, setMemoryB32_unaligned ha⟩, fun ha hp => ?_, fun ha hp => ?_⟩
    · rw [getMemoryB32_unprepared ha hin, setMemoryB32_unprepared ha hin]
      exact ⟨if_pos hp, if_pos hp⟩
    · rw [getMemoryB32_unprepared ha hin, setMemoryB32_unprepared ha hin, leafIndex_eq]
      exact ⟨if_neg hp, if_neg hp⟩
  case prepared =>
    rintro s addr p calldata rest _ newLeaf _ m hin rfl rfl
    refine ⟨fun ha => ⟨getMemoryB32_unaligned ha, setMemoryB32_unaligned ha⟩, fun ha hp => ?_, fun ha hp hlen => ?_,
      fun ha hp hlen => ?_⟩
    all_goals rw [getMemoryB32_prepared ha hin, setMemoryB32_prepared ha hin]
    · rw [show p = noProof from hp, proofBlock_noProof]
      exact ⟨rfl, rfl⟩
    · rw [proofBlock_missing hp hlen]
      exact ⟨rfl, rfl⟩
    · rw [proofBlock_present hp hlen, leafIndex_eq]
      exact ⟨rfl, rfl⟩

end Sys2Proof.Machine

/-! What an instruction does not read (10_state.md R27, R36, R39): the step counter, what calldata holds beside its proof
blocks, and, unless it is a read on fd 5, the oracle's table. Per operation: the operation commutes with a
change of the host's fields. -/

namespace Sys2Proof.Machine

/-! ### Changes carried through an outcome -/

theorem mapNext_andThen {α : Type} (g : State → State) (x : Result α) (f : α → Result State) :
    mapNext g (andThen x f) = andThen x fun a => mapNext g (f a) := by cases x <;> rfl

theorem andThen_mapNext {α : Type} (g : State → State) (x : Result State) (f : State → Result α) :
    andThen (mapNext g x) f = andThen x fun s => f (g s) := by cases x <;> rfl

theorem andThen_congr {α β : Type} {x : Result α} {f g : α → Result β} (h : ∀ a, x = .next a → f a = g a) :
    andThen x f = andThen x g := by
  cases x with
  | next a => exact h a rfl
  | fault e => rfl
  | refused r => rfl

theorem mapNext_congr {x : Result State} {f g : State → State} (h : ∀ s, x = .next s → f s = g s) :
    mapNext f x = mapNext g x := by
  cases x with
  | next s => exact congrArg _ (h s rfl)
  | fault e => rfl
  | refused r => rfl

/-! ### Memory access -/

/-- Calldata that holds the same proof blocks, or none in both. -/
def SameBlocks (ins ins' : List (List Byte)) : Prop :=
  (ins = [] ∧ ins' = []) ∨
    ∃ calldata rest calldata' rest', ins = calldata :: rest ∧ ins' = calldata' :: rest' ∧
      proofBlock calldata = proofBlock calldata'

theorem SameBlocks.refl (ins : List (List Byte)) : SameBlocks ins ins := by
  cases ins with
  | nil => exact .inl ⟨rfl, rfl⟩
  | cons calldata rest => exact .inr ⟨_, _, _, _, rfl, rfl, rfl⟩

section
variable {u : HostFields} {s : State} (hb : SameBlocks u.inputs s.inputs)
include hb

theorem getMemoryB32_withHost (addr : Word) (p : Nat) : getMemoryB32 (withHost u s) addr p = getMemoryB32 s addr p := by
  by_cases ha : addr &&& 31#64 = 0
  case neg => rw [getMemoryB32_unaligned ha, getMemoryB32_unaligned ha]
  obtain ⟨hu, hs⟩ | ⟨_, _, _, _, hu, hs, hblock⟩ := hb
  · rw [getMemoryB32_unprepared (s := withHost u s) ha hu, getMemoryB32_unprepared ha hs]
    rfl
  · rw [getMemoryB32_prepared (s := withHost u s) ha hu, getMemoryB32_prepared ha hs, hblock]
    rfl

theorem setMemoryB32_withHost (addr : Word) (leaf : Bytes32) (p : Nat) (m : Memory) :
    setMemoryB32 (withHost u s) addr leaf p m = mapNext (withHost u) (setMemoryB32 s addr leaf p m) := by
  by_cases ha : addr &&& 31#64 = 0
  case neg => rw [setMemoryB32_unaligned ha, setMemoryB32_unaligned ha]; rfl
  obtain ⟨hu, hs⟩ | ⟨_, _, _, _, hu, hs, hblock⟩ := hb
  · rw [setMemoryB32_unprepared (s := withHost u s) ha hu, setMemoryB32_unprepared ha hs]
    split_ifs <;> rfl
  · rw [setMemoryB32_prepared (s := withHost u s) ha hu, setMemoryB32_prepared ha hs, hblock, mapNext_andThen]
    rfl

theorem loadMem_withHost (addr : Word) (size : Nat) (signed : Bool) (pL pR : Nat) :
    loadMem (withHost u s) addr size signed pL pR = loadMem s addr size signed pL pR := by
  simp only [loadMem, getMemoryB32_withHost hb]

theorem patchMemory_withHost (leafAddr : Word) (off n : Nat) (f : Nat → Byte) (p : Nat) :
    patchMemory (withHost u s) leafAddr off n f p = mapNext (withHost u) (patchMemory s leafAddr off n f p) := by
  simp only [patchMemory, getMemoryB32_withHost hb, setMemoryB32_withHost hb, mapNext_andThen]
  rfl

theorem storeMem_withHost (addr : Word) (size value pL pR : Nat) :
    storeMem (withHost u s) addr size value pL pR = mapNext (withHost u) (storeMem s addr size value pL pR) := by
  simp only [storeMem, patchMemory_withHost hb, andThen_mapNext, mapNext_andThen]
  refine andThen_congr fun t ht => ?_
  have hbt : SameBlocks u.inputs t.inputs := by
    rw [patchMemory_next ht]
    exact hb
  split_ifs
  · rfl
  · exact patchMemory_withHost hbt _ _ _ _ _

/-! ### Operations -/

theorem loadInto_withHost (rd : Reg) (addr : Word) (size : Nat) (signed : Bool) :
    loadInto rd addr size signed (withHost u s) = mapNext (withHost u) (loadInto rd addr size signed s) := by
  rw [loadInto, loadInto, loadMem_withHost hb, mapNext_andThen]
  rfl

theorem storeFrom_withHost (addr : Word) (size value : Nat) :
    storeFrom addr size value (withHost u s) = mapNext (withHost u) (storeFrom addr size value s) := by
  rw [storeFrom, storeFrom, storeMem_withHost hb, andThen_mapNext, mapNext_andThen]
  rfl

theorem loadReserved_withHost (rd rs1 : Reg) (size : Nat) :
    loadReserved rd rs1 size (withHost u s) = mapNext (withHost u) (loadReserved rd rs1 size s) := by
  rw [loadReserved, loadReserved, loadMem_withHost hb, mapNext_andThen]
  rfl

theorem storeConditional_withHost (rd rs1 rs2 : Reg) (size : Nat) :
    storeConditional rd rs1 rs2 size (withHost u s) = mapNext (withHost u) (storeConditional rd rs1 rs2 size s) := by
  rw [storeConditional, storeConditional, storeMem_withHost hb, andThen_mapNext]
  by_cases h : getReg s rs1 = s.loadReservation
  · rw [if_pos h, mapNext_andThen]
    exact if_pos h
  · rw [if_neg h]
    exact if_neg h

theorem atomicUpdate_withHost (rd rs1 : Reg) (size : Nat) (src : Word) (f : Word → Word → Word) :
    atomicUpdate rd rs1 size src f (withHost u s) = mapNext (withHost u) (atomicUpdate rd rs1 size src f s) := by
  simp only [atomicUpdate, loadMem_withHost hb, storeMem_withHost hb, andThen_mapNext, mapNext_andThen]
  rfl

theorem readPreimageValue_withHost (ht : u.oracleTable = s.oracleTable) (addr count : Word) :
    readPreimageValue (withHost u s) addr count =
      andThen (readPreimageValue s addr count) fun r => .next (withHost u r.1, r.2) := by
  have horacle : oracleRead (withHost u s) (withHost u s).preimageKey (withHost u s).preimageOffset =
      oracleRead s s.preimageKey s.preimageOffset := by
    rw [oracleRead, oracleRead, ← ht]
    rfl
  rw [readPreimageValue, readPreimageValue, horacle]
  cases oracleRead s s.preimageKey s.preimageOffset with
  | error => rfl
  | data chunk length =>
    dsimp only
    split_ifs
    · rfl
    · rfl
    · rw [patchMemory_withHost hb, andThen_mapNext, andThen_assoc]
      rfl

theorem writePreimageKey_withHost (addr count : Word) :
    writePreimageKey (withHost u s) addr count =
      andThen (writePreimageKey s addr count) fun r => .next (withHost u r.1, r.2) := by
  rw [writePreimageKey, writePreimageKey, getMemoryB32_withHost hb, andThen_assoc]
  rfl

/-- A call reads the oracle's table only to read on fd 5. -/
theorem syscall_withHost (h : u.oracleTable = s.oracleTable ∨ ¬(argA7 s = 63 ∧ argA0 s = 5)) :
    syscall (withHost u s) = mapNext (withHost u) (syscall s) := by
  cases syscall_shape s with
  | exit num run => rw [run u, show syscall s = _ from run (hostFields s)]; rfl
  | answer n err num run => rw [run u, show syscall s = _ from run (hostFields s)]; rfl
  | mmap num run => rw [run u, show syscall s = _ from run (hostFields s)]; rfl
  | store value num run =>
    rw [run u, show syscall s = _ from run (hostFields s), storeMem_withHost hb, andThen_mapNext, mapNext_andThen]
    rfl
  | readValue num fd run =>
    have ht : u.oracleTable = s.oracleTable := h.resolve_right (not_not.mpr ⟨num, fd⟩)
    rw [run u, show syscall s = _ from run (hostFields s), readPreimageValue_withHost hb ht, andThen_assoc,
      mapNext_andThen]
    rfl
  | writeKey num fd run =>
    rw [run u, show syscall s = _ from run (hostFields s), writePreimageKey_withHost hb, andThen_assoc,
      mapNext_andThen]
    rfl
  | otherLimit num resource run => rw [run u, show syscall s = _ from run (hostFields s)]; rfl
  | unknown num run => rw [run u, show syscall s = _ from run (hostFields s)]; rfl

/-- Of the host's fields an instruction reads the proof blocks and, to read on fd 5, the oracle's table. -/
theorem exec_withHost (i : Instr)
    (h : u.oracleTable = s.oracleTable ∨ ¬(isEcall i = true ∧ argA7 s = 63 ∧ argA0 s = 5)) :
    exec i (withHost u s) = mapNext (withHost u) (exec i s) := by
  cases exec_shape i with
  | compute rd v kind run blind => rw [run, run, blind]; rfl
  | skip kind run => rw [run, run]; rfl
  | branch taken imm kind run blind => rw [run, run, blind, branchIf_eq Iff.rfl, branchIf_eq Iff.rfl]; rfl
  | jump rd target kind run blind => rw [run, run, blind]; rfl
  | load rd rs1 imm size signed h1 h8 kind run =>
    rw [run, run]
    exact loadInto_withHost hb rd (loadAddress rs1 imm s) size signed
  | store rs1 rs2 imm size h1 h8 kind run =>
    rw [run, run]
    exact storeFrom_withHost hb (storeAddress rs1 imm s) size (getReg s rs2).toNat
  | loadReserved rd rs1 size h1 h8 kind run => rw [run, run, loadReserved_withHost hb]
  | storeConditional rd rs1 rs2 size h1 h8 kind run => rw [run, run, storeConditional_withHost hb]
  | atomic rd rs1 size src f h1 h8 kind run blind => rw [run, run, blind, atomicUpdate_withHost hb]
  | ecall hi run =>
    rw [run, run]
    exact syscall_withHost hb (h.imp_right fun hne hread => hne ⟨hi, hread⟩)
  | raise e hi cause run => rw [run, run]; rfl
  | refuse r hi run => rw [run, run]; rfl

end

/-- No instruction changes the host's fields. -/
theorem exec_hostFields {i : Instr} {s t : State} (h : exec i s = .next t) : hostFields t = hostFields s := by
  obtain ⟨-, -, -, -, hstep, hinputs, htable, -⟩ := whoWritesWhat i s t h
  rw [hostFields, hstep, htable, hinputs, hostFields]

/-- With the host's fields changed, the same outcome with the change in it. -/
theorem exec_of_withHost_eq {u : HostFields} {s : State} {i : Instr} {g : State → State}
    (hb : SameBlocks u.inputs s.inputs)
    (h : u.oracleTable = s.oracleTable ∨ ¬(isEcall i = true ∧ argA7 s = 63 ∧ argA0 s = 5))
    (hg : ∀ t, hostFields t = hostFields s → withHost u t = g t) : exec i (withHost u s) = mapNext g (exec i s) :=
  (exec_withHost hb i h).trans (mapNext_congr fun t ht => hg t (exec_hostFields ht))

/-- Settles O31: the change of the step counter alone. -/
theorem stepCounterUntouched : Obligations.StepCounterUntouched := fun i s c =>
  exec_of_withHost_eq (u := { hostFields s with stepCounter := c }) (.refl _) (.inl rfl) fun t ht => by
    rw [← ht]
    rfl

/-- Settles O32: the change of the oracle's table alone. -/
theorem oracleOnlyInRead : Obligations.OracleOnlyInRead := fun i s table h =>
  exec_of_withHost_eq (u := { hostFields s with oracleTable := table }) (.refl _) (.inr h) fun t ht => by
    rw [← ht]
    rfl

end Sys2Proof.Machine

/-! Loads and stores with an honest host (20_memory.md R66 to R70, R76(c)), as values: the bytes, halfwords, words and
doublewords of `Safety` are what `loadMem` gives, and a store of a register stores its bytes. -/

namespace Sys2Proof.Machine

/-! ### Values in memory -/

/-- The value of `p + q` bytes is that of the low `p` and that of the `q` behind them. -/
theorem leValue_add (p q : Nat) (f : Nat → Byte) :
    leValue (p + q) f = leValue p f + 256 ^ p * leValue q fun j => f (p + j) := by
  induction p generalizing f with
  | zero => simp [leValue]
  | succ p ih =>
    have hshift : (fun j => f (p + 1 + j)) = fun j => f (p + j + 1) := by
      funext j
      rw [Nat.add_right_comm]
    rw [Nat.add_right_comm, leValue, leValue, ih, hshift, Nat.pow_succ]
    ring

/-- `x` is the little-endian value of the `size` bytes at `addr` (R68). -/
def Reads {w : Nat} (s : State) (addr : Word) (size : Nat) (x : BitVec w) : Prop :=
  x.toNat = leValue size fun j => s.mem.read (byteAddress addr j)

section
variable {s : State} {addr : Word}

/-- The value at the higher address stands in the high bits. -/
theorem Reads.append {w v p q : Nat} {x : BitVec w} {y : BitVec v} (hx : Reads s addr p x)
    (hy : Reads s (addr + BitVec.ofNat 64 p) q y) (hw : w = 8 * p) : Reads s addr (p + q) (y ++ x) := by
  have hbytes : (fun j => s.mem.read (byteAddress (addr + BitVec.ofNat 64 p) j)) =
      fun j => s.mem.read (byteAddress addr (p + j)) := by
    funext j
    rw [byteAddress, byteAddress, BitVec.ofNat_add, BitVec.add_assoc]
  rw [Reads, toNat_append_add, hx, hy, hbytes, leValue_add, hw, Nat.pow_mul, Nat.add_comm, Nat.mul_comm]

theorem reads_byteAt : Reads s addr 1 (byteAt s addr) := by
  rw [Reads, leValue, leValue, Nat.mul_zero, Nat.add_zero, byteAt, byteAddress, BitVec.add_zero]

theorem reads_halfAt : Reads s addr 2 (halfAt s addr) := reads_byteAt.append reads_byteAt rfl

theorem reads_wordAtAddr : Reads s addr 4 (wordAtAddr s addr) := reads_halfAt.append reads_halfAt rfl

theorem reads_doubleAt : Reads s addr 8 (doubleAt s addr) := reads_wordAtAddr.append reads_wordAtAddr rfl

theorem Reads.load {w size : Nat} {x : BitVec w} (hx : Reads s addr size x) :
    s.mem.load addr size = x.setWidth 64 := by
  rw [Memory.load, ← hx, BitVec.ofNat_toNat]

theorem sext_setWidth {w : Nat} (x : BitVec w) (hw : w ≤ 64) : sext w (x.setWidth 64) = x.signExtend 64 := by
  rw [sext, BitVec.setWidth_setWidth_of_le _ hw, BitVec.setWidth_eq]

/-! ### Loads and stores -/

theorem dataLeft_ne_noProof : dataLeft ≠ noProof := by decide
theorem dataRight_ne_noProof : dataRight ≠ noProof := by decide
theorem atomicRight_ne_noProof : atomicRight ≠ noProof := by decide

/-- A load with an honest host gives the value in memory, sign- or zero-extended (R66). -/
theorem loadMem_reads {w size : Nat} {x : BitVec w} (hh : HonestHost s) (hx : Reads s addr size x) (hw : w = 8 * size)
    (h1 : 1 ≤ size) (h8 : size ≤ 8) (signed : Bool) :
    loadMem s addr size signed dataLeft dataRight = .next (if signed then x.signExtend 64 else x.setWidth 64) := by
  subst hw
  rw [loadMem_honest s addr size signed dataLeft dataRight hh.1 hh.2 h1 (by omega) dataLeft_ne_noProof
    (.inl dataRight_ne_noProof), hx.load, sext_setWidth x (by omega)]

/-- A store with an honest host is an ordinary write (R76(b), (c)). -/
theorem storeMem_written {size value pR : Nat} (hh : HonestHost s) (h1 : 1 ≤ size) (hs : size ≤ 32) (hR : pR ≠ noProof) :
    storeMem s addr size value dataLeft pR = .next (written s addr (valueByte value) size) :=
  storeMem_honest s addr size value dataLeft pR hh.1 hh.2 h1 hs dataLeft_ne_noProof hR

/-- The bytes of a register value (R67). -/
theorem valueByte_toNat {w : Nat} (x : BitVec w) : valueByte x.toNat = fun j => x.extractLsb' (8 * j) 8 := rfl

theorem store_congr {m : Memory} {f g : Nat → Byte} {n : Nat} (h : ∀ j, j < n → f j = g j) :
    m.store addr f n = m.store addr g n := by
  induction n with
  | zero => rfl
  | succ n ih => rw [Memory.store, Memory.store, ih fun j hj => h j (by omega), h n (by omega)]

theorem written_congr {f g : Nat → Byte} {n : Nat} (h : ∀ j, j < n → f j = g j) :
    written s addr f n = written s addr g n := by
  rw [written, written, store_congr h]

end

/-! ### Words -/

/-- The word of a well-formed instruction runs as the instruction does. -/
theorem runs_encode {i : Instr} {s : State} {r : Result State} (hwf : WellFormed i = true) (h : exec i s = r) :
    Runs (encode i) i s r :=
  ⟨decode_encode hwf, h⟩

/-! ### The eight loads (R140 to R148) -/

/-- Settles O33: each load is `loadInto` of its address, size and sign. -/
theorem loadsUseVerifiedReads : Obligations.LoadsUseVerifiedReads := by
  refine ⟨fun s addr size signed e h => loadMem_fault h, ?_⟩
  rintro rd rs1 imm s _ rfl
  refine ⟨?_, ?_, ?_, ?_, ?_, ?_, ?_, ?_⟩
  exacts [runs_encode (i := .lb rd rs1 imm) rfl rfl, runs_encode (i := .lh rd rs1 imm) rfl rfl,
    runs_encode (i := .lw rd rs1 imm) rfl rfl, runs_encode (i := .ld rd rs1 imm) rfl rfl,
    runs_encode (i := .lbu rd rs1 imm) rfl rfl, runs_encode (i := .lhu rd rs1 imm) rfl rfl,
    runs_encode (i := .lwu rd rs1 imm) rfl rfl, runs_encode (i := .rsvLoad7 rd rs1 imm) rfl rfl]

/-- A load of a value that memory holds. -/
theorem loadInto_reads {w size : Nat} {x : BitVec w} {s : State} {addr : Word} (hh : HonestHost s)
    (hx : Reads s addr size x) (hw : w = 8 * size) (h1 : 1 ≤ size) (h8 : size ≤ 8) (signed : Bool) (rd : Reg) :
    loadInto rd addr size signed s = .next (withRd s rd (if signed then x.signExtend 64 else x.setWidth 64)) := by
  rw [loadInto, loadMem_reads hh hx hw h1 h8 signed, andThen_next, writeBack_eq]

/-- Settles O34: the value at the address of each load; extending 64 bits to 64 changes nothing. -/
theorem loadsReadMemory : Obligations.LoadsReadMemory := by
  rintro rd rs1 imm s _ hh rfl
  have hdouble (signed : Bool) (a : Word) : loadInto rd a 8 signed s = .next (withRd s rd (doubleAt s a)) := by
    rw [loadInto_reads hh reads_doubleAt rfl (by decide) (by decide), BitVec.signExtend_eq, BitVec.setWidth_eq, ite_self]
  exact ⟨loadInto_reads hh reads_byteAt rfl (by decide) (by decide) true rd,
    loadInto_reads hh reads_halfAt rfl (by decide) (by decide) true rd,
    loadInto_reads hh reads_wordAtAddr rfl (by decide) (by decide) true rd, hdouble true _,
    loadInto_reads hh reads_byteAt rfl (by decide) (by decide) false rd,
    loadInto_reads hh reads_halfAt rfl (by decide) (by decide) false rd,
    loadInto_reads hh reads_wordAtAddr rfl (by decide) (by decide) false rd, hdouble false _⟩

/-! ### The four stores (R150 to R154) -/

/-- A leaf write at a leaf address never reverts (R65). -/
theorem setMemoryB32_leafBase_ne_fault {s : State} {addr : Word} {leaf : Bytes32} {p : Nat} {m : Memory} {e : Fault} :
    setMemoryB32 s (leafBase addr) leaf p m ≠ .fault e := by
  intro h
  cases hin : s.inputs with
  | nil =>
    rw [setMemoryB32_unprepared (leafBase_and_31 addr) hin] at h
    split_ifs at h
  | cons calldata rest =>
    rw [setMemoryB32_prepared (leafBase_and_31 addr) hin, proofBlock] at h
    split_ifs at h <;> cases h

theorem andThen_eq_fault {α β : Type} {x : Result α} {f : α → Result β} {e : Fault} :
    andThen x f = .fault e ↔ x = .fault e ∨ ∃ a, x = .next a ∧ f a = .fault e := by
  cases x <;> simp [andThen]

theorem patchMemory_fault {s : State} {addr : Word} {off n : Nat} {f : Nat → Byte} {p : Nat} {e : Fault}
    (h : patchMemory s (leafBase addr) off n f p = .fault e) : e = .badProof := by
  obtain hget | ⟨leaf, -, hset⟩ := andThen_eq_fault.mp h
  · exact getMemoryB32_fault hget
  · exact (setMemoryB32_leafBase_ne_fault hset).elim

/-- A store reverts with nothing but `badProof` (R150). -/
theorem storeMem_fault {s : State} {addr : Word} {size value pL pR : Nat} {e : Fault}
    (h : storeMem s addr size value pL pR = .fault e) : e = .badProof := by
  obtain hleft | ⟨t, -, hright⟩ := andThen_eq_fault.mp h
  · exact patchMemory_fault hleft
  · split_ifs at hright
    exact patchMemory_fault hright

/-- A store is a verified write, then the pc of the state before it advances (R150). -/
theorem storeFrom_eq (addr : Word) (size value : Nat) (s : State) (h1 : 1 ≤ size) (h8 : size ≤ 8) :
    storeFrom addr size value s =
      andThen (storeMem s addr size value 1 2) fun t => .next { t with pc := s.pc + 4 } := by
  refine andThen_congr fun t ht => ?_
  obtain ⟨f, r, rfl, -⟩ := storeMem_stored h1 (by omega) ht
  rfl

/-- Settles O35: each store is `storeFrom` of its address and size. -/
theorem storesUseVerifiedWrites : Obligations.StoresUseVerifiedWrites := by
  refine ⟨fun s addr size value e h => storeMem_fault h, ?_⟩
  rintro rs1 rs2 imm s _ rfl
  refine ⟨?_, ?_, ?_, ?_⟩
  exacts [runs_encode (i := .sb rs1 rs2 imm) rfl (storeFrom_eq _ _ _ _ (by decide) (by decide)),
    runs_encode (i := .sh rs1 rs2 imm) rfl (storeFrom_eq _ _ _ _ (by decide) (by decide)),
    runs_encode (i := .sw rs1 rs2 imm) rfl (storeFrom_eq _ _ _ _ (by decide) (by decide)),
    runs_encode (i := .sd rs1 rs2 imm) rfl (storeFrom_eq _ _ _ _ (by decide) (by decide))]

theorem storeFrom_written {s : State} (hh : HonestHost s) (addr : Word) (x : Word) (size : Nat) (h1 : 1 ≤ size)
    (h8 : size ≤ 8) :
    storeFrom addr size x.toNat s =
      .next { written s addr (fun j => x.extractLsb' (8 * j) 8) size with pc := s.pc + 4 } := by
  rw [storeFrom, storeMem_written hh h1 (by omega) dataRight_ne_noProof, andThen_next, valueByte_toNat]
  rfl

/-- Settles O36: an ordinary write of the bytes of `x[rs2]`, for each size. -/
theorem storesWriteMemory : Obligations.StoresWriteMemory := by
  rintro rs1 rs2 imm s _ hh rfl
  exact ⟨storeFrom_written hh _ _ 1 (by decide) (by decide), storeFrom_written hh _ _ 2 (by decide) (by decide),
    storeFrom_written hh _ _ 4 (by decide) (by decide), storeFrom_written hh _ _ 8 (by decide) (by decide)⟩

/-! ### LR and SC (R303 to R306) -/

theorem loadReserved_reads {w size : Nat} {x : BitVec w} {s : State} {rs1 : Reg} (hh : HonestHost s)
    (hx : Reads s (getReg s rs1) size x) (hw : w = 8 * size) (h1 : 1 ≤ size) (h8 : size ≤ 8) (rd : Reg) :
    loadReserved rd rs1 size s =
      .next { withRd s rd (x.signExtend 64) with loadReservation := getReg s rs1 } := by
  rw [loadReserved, loadMem_reads hh hx hw h1 h8 true, andThen_next]
  rfl

theorem storeConditional_written {s : State} {rs1 : Reg} (hh : HonestHost s)
    (hres : getReg s rs1 = s.loadReservation) (rd rs2 : Reg) (size : Nat) (h1 : 1 ≤ size) (h8 : size ≤ 8) :
    storeConditional rd rs1 rs2 size s =
      .next { withRd (written s (getReg s rs1) (fun j => (getReg s rs2).extractLsb' (8 * j) 8) size) rd 0 with
        loadReservation := 0 } := by
  rw [storeConditional, if_pos hres, storeMem_written hh h1 (by omega) atomicRight_ne_noProof, andThen_next,
    valueByte_toNat]
  rfl

/-! ### AMOs (R307 to R325) -/

theorem amoMin_eq (old src : Word) : amoMin old src = if old.toInt < src.toInt then old else src := by
  simp only [amoMin, ltSigned_iff]

theorem amoMax_eq (old src : Word) : amoMax old src = if src.toInt < old.toInt then old else src := by
  simp only [amoMax, ltSigned_iff]

theorem amoMinu_eq (old src : Word) : amoMinu old src = if old.toNat < src.toNat then old else src := by
  simp only [amoMinu, ltUnsigned_iff]

theorem amoMaxu_eq (old src : Word) : amoMaxu old src = if src.toNat < old.toNat then old else src := by
  simp only [amoMaxu, ltUnsigned_iff]

section
variable {w : Nat} {old : BitVec w}

/-- The bytes of a register value below its low `w = 8 * size` bits are those of the low part. -/
theorem extractLsb'_setWidth_byte (x : Word) {size j : Nat} (hw : w = 8 * size) (hj : j < size) :
    x.extractLsb' (8 * j) 8 = (x.setWidth w).extractLsb' (8 * j) 8 := by
  apply BitVec.eq_of_getLsbD_eq
  intro k hk
  simp [hk, show 8 * j + k < w by omega]

/-- An AMO with an honest host: `f` on the register values, cut to the width, is what the memory receives (R307). -/
theorem atomicUpdate_reads {s : State} {rs1 : Reg} {size : Nat} {new : BitVec w} {operand : Word}
    {f : Word → Word → Word} (hh : HonestHost s) (hold : Reads s (getReg s rs1) size old) (hw : w = 8 * size)
    (h1 : 1 ≤ size) (h8 : size ≤ 8) (rd : Reg) (hnew : (f (old.signExtend 64) operand).setWidth w = new) :
    atomicUpdate rd rs1 size operand f s = .next (withAtomic s rd (getReg s rs1) old new size) := by
  rw [atomicUpdate, loadMem_reads hh hold hw h1 h8 true, andThen_next, if_pos rfl,
    storeMem_written hh h1 (by omega) atomicRight_ne_noProof, andThen_next, valueByte_toNat,
    written_congr fun j hj => extractLsb'_setWidth_byte _ hw hj, hnew]
  rfl

end

section
variable {s : State} {rd rs1 rs2 : Reg} {f : Word → Word → Word} {a b : BitVec 32}

theorem setWidth_signExtend (a : BitVec 32) : (a.signExtend 64).setWidth 32 = a := by
  apply BitVec.eq_of_getLsbD_eq
  intro k hk
  simp [BitVec.getLsbD_signExtend, hk]
  omega

/-- Sign extension keeps the unsigned order: it adds the same to every value with the top bit set (R328). -/
theorem toNat_signExtend_lt : (a.signExtend 64).toNat < (b.signExtend 64).toNat ↔ a.toNat < b.toNat := by
  have ha := a.isLt
  have hb := b.isLt
  simp only [BitVec.toNat_signExtend, BitVec.toNat_setWidth, BitVec.msb_eq_decide]
  split_ifs <;> simp_all <;> omega

theorem toInt_signExtend (a : BitVec 32) : (a.signExtend 64).toInt = a.toInt :=
  BitVec.toInt_signExtend_of_le (by decide)

/-- A 32-bit AMO: its operands are the sign-extended words. -/
theorem amoW_reads (hh : HonestHost s) (rd : Reg) {new : BitVec 32}
    (hnew : (f ((wordAtAddr s (getReg s rs1)).signExtend 64) (((getReg s rs2).setWidth 32).signExtend 64)).setWidth 32 =
      new) :
    atomicUpdate rd rs1 4 (amoOperandW s rs2) f s =
      .next (withAtomic s rd (getReg s rs1) (wordAtAddr s (getReg s rs1)) new 4) :=
  atomicUpdate_reads hh reads_wordAtAddr rfl (by decide) (by decide) rd hnew

/-- A 64-bit AMO. -/
theorem amoD_reads (hh : HonestHost s) (rd : Reg) {new : Word}
    (hnew : f (doubleAt s (getReg s rs1)) (getReg s rs2) = new) :
    atomicUpdate rd rs1 8 (getReg s rs2) f s =
      .next (withAtomic s rd (getReg s rs1) (doubleAt s (getReg s rs1)) new 8) :=
  atomicUpdate_reads hh reads_doubleAt rfl (by decide) (by decide) rd
    (by rw [BitVec.signExtend_eq, BitVec.setWidth_eq, hnew])

end

/-- Settles O58: for each operation the low word of its 64-bit result is the 32-bit result. -/
theorem atomicWords : Obligations.AtomicWords := by
  rintro rd rs1 rs2 aq rl s _ _ _ hh rfl rfl rfl
  refine ⟨?swap, ?add, ?xor, ?and, ?or, ?min, ?max, ?minu, ?maxu⟩
  case swap => exact runs_encode (i := .amoswapW rd rs1 rs2 aq rl) rfl (amoW_reads hh rd (setWidth_signExtend _))
  case add =>
    exact runs_encode (i := .amoaddW rd rs1 rs2 aq rl) rfl
      (amoW_reads hh rd (by rw [amoAdd, BitVec.setWidth_add _ _ (by decide), setWidth_signExtend, setWidth_signExtend]))
  case xor =>
    exact runs_encode (i := .amoxorW rd rs1 rs2 aq rl) rfl
      (amoW_reads hh rd (by rw [amoXor, BitVec.setWidth_xor, setWidth_signExtend, setWidth_signExtend]))
  case and =>
    exact runs_encode (i := .amoandW rd rs1 rs2 aq rl) rfl
      (amoW_reads hh rd (by rw [amoAnd, BitVec.setWidth_and, setWidth_signExtend, setWidth_signExtend]))
  case or =>
    exact runs_encode (i := .amoorW rd rs1 rs2 aq rl) rfl
      (amoW_reads hh rd (by rw [amoOr, BitVec.setWidth_or, setWidth_signExtend, setWidth_signExtend]))
  case min =>
    exact runs_encode (i := .amominW rd rs1 rs2 aq rl) rfl
      (amoW_reads hh rd (by simp only [amoMin_eq, toInt_signExtend, apply_ite (BitVec.setWidth 32), setWidth_signExtend]))
  case max =>
    exact runs_encode (i := .amomaxW rd rs1 rs2 aq rl) rfl
      (amoW_reads hh rd (by simp only [amoMax_eq, toInt_signExtend, apply_ite (BitVec.setWidth 32), setWidth_signExtend]))
  case minu =>
    exact runs_encode (i := .amominuW rd rs1 rs2 aq rl) rfl
      (amoW_reads hh rd (by simp only [amoMinu_eq, toNat_signExtend_lt, apply_ite (BitVec.setWidth 32), setWidth_signExtend]))
  case maxu =>
    exact runs_encode (i := .amomaxuW rd rs1 rs2 aq rl) rfl
      (amoW_reads hh rd (by simp only [amoMaxu_eq, toNat_signExtend_lt, apply_ite (BitVec.setWidth 32), setWidth_signExtend]))

/-- Settles O59: each operation on the doubleword itself. -/
theorem atomicDoublewords : Obligations.AtomicDoublewords := by
  rintro rd rs1 rs2 aq rl s _ _ _ hh rfl rfl rfl
  refine ⟨?swap, ?add, ?xor, ?and, ?or, ?min, ?max, ?minu, ?maxu⟩
  case swap => exact runs_encode (i := .amoswapD rd rs1 rs2 aq rl) rfl (amoD_reads hh rd rfl)
  case add => exact runs_encode (i := .amoaddD rd rs1 rs2 aq rl) rfl (amoD_reads hh rd rfl)
  case xor => exact runs_encode (i := .amoxorD rd rs1 rs2 aq rl) rfl (amoD_reads hh rd rfl)
  case and => exact runs_encode (i := .amoandD rd rs1 rs2 aq rl) rfl (amoD_reads hh rd rfl)
  case or => exact runs_encode (i := .amoorD rd rs1 rs2 aq rl) rfl (amoD_reads hh rd rfl)
  case min =>
    exact runs_encode (i := .amominD rd rs1 rs2 aq rl) rfl (amoD_reads hh rd (by rw [amoMin_eq]))
  case max =>
    exact runs_encode (i := .amomaxD rd rs1 rs2 aq rl) rfl (amoD_reads hh rd (by rw [amoMax_eq]))
  case minu =>
    exact runs_encode (i := .amominuD rd rs1 rs2 aq rl) rfl (amoD_reads hh rd (by rw [amoMinu_eq]))
  case maxu =>
    exact runs_encode (i := .amomaxuD rd rs1 rs2 aq rl) rfl (amoD_reads hh rd (by rw [amoMaxu_eq]))

/-- An AMO depends on its function at the operand alone. -/
theorem atomicUpdate_congr {rd rs1 : Reg} {size : Nat} {src : Word} {f g : Word → Word → Word} {s : State}
    (h : ∀ old, f old src = g old src) : atomicUpdate rd rs1 size src f s = atomicUpdate rd rs1 size src g s := by
  simp only [atomicUpdate, h]

/-- Settles O60: all are `atomicUpdate` of their function, the comparisons read as the statement has them. -/
theorem atomicsUseVerifiedAccesses : Obligations.AtomicsUseVerifiedAccesses := by
  rintro rd rs1 rs2 aq rl s _ rfl
  simp only [List.forall_mem_cons, List.not_mem_nil, false_imp_iff, implies_true, and_true]
  exact ⟨⟨rfl, rfl, rfl, rfl, rfl, atomicUpdate_congr fun old => amoMin_eq old _,
      atomicUpdate_congr fun old => amoMax_eq old _, atomicUpdate_congr fun old => amoMinu_eq old _,
      atomicUpdate_congr fun old => amoMaxu_eq old _⟩,
    rfl, rfl, rfl, rfl, rfl, atomicUpdate_congr fun old => amoMin_eq old _,
    atomicUpdate_congr fun old => amoMax_eq old _, atomicUpdate_congr fun old => amoMinu_eq old _,
    atomicUpdate_congr fun old => amoMaxu_eq old _⟩

end Sys2Proof.Machine

namespace Sys2Proof

section
open Machine

/-- Settles O56: both are the model's `loadReserved`, of four and of eight bytes. -/
theorem loadReserved : Obligations.LoadReserved := by
  rintro rd rs1 rs2 aq rl s _ rfl
  refine ⟨runs_encode (i := .lrW rd rs1 rs2 aq rl) rfl rfl, runs_encode (i := .lrD rd rs1 rs2 aq rl) rfl rfl,
    fun hh => loadReserved_reads hh reads_wordAtAddr rfl (by decide) (by decide) rd, fun hh => ?_⟩
  have h := loadReserved_reads (rs1 := rs1) hh reads_doubleAt rfl (by decide) (by decide) rd
  rwa [BitVec.signExtend_eq] at h

/-- Settles O57: both are the model's `storeConditional`, of four and of eight bytes. -/
theorem storeConditional : Obligations.StoreConditional := by
  rintro rd rs1 rs2 aq rl s _ rfl
  exact ⟨runs_encode (i := .scW rd rs1 rs2 aq rl) rfl rfl, runs_encode (i := .scD rd rs1 rs2 aq rl) rfl rfl,
    fun hh hres => storeConditional_written hh hres rd rs2 4 (by decide) (by decide),
    fun hh hres => storeConditional_written hh hres rd rs2 8 (by decide) (by decide)⟩

end

end Sys2Proof

/-! Faults and the step (10_state.md R41, 30_encoding.md R100, 60_exceptions.md R341): what the fetch answers, what makes an
instruction revert, and how a step ends when it does. -/

namespace Sys2Proof.Machine

/-! ### The fetch (R100) -/

section
variable {s : State}

/-- The fetch lies in one leaf. -/
theorem fetch_of_fits (hh : HonestHost s) (hpc : s.pc.toNat % 32 ≤ 28) : fetch s = .next (wordAtAddr s s.pc) := by
  rw [fetch, loadMem_honest s s.pc 4 false 0 noProof hh.1 hh.2 (by decide) (by decide) (by decide)
    (.inr (by rw [leafOffset_eq]; omega)), andThen_next, reads_wordAtAddr.load]
  rw [if_neg (by decide), BitVec.setWidth_setWidth_of_le _ (by decide), BitVec.setWidth_eq]

/-- Proof index `0xFF` never gives a leaf (R38, R63). -/
theorem getMemoryB32_noProof (s : State) (addr : Word) :
    getMemoryB32 s (leafBase addr) noProof = .refused .noProofProvided := by
  cases hin : s.inputs with
  | nil => rw [getMemoryB32_unprepared (leafBase_and_31 addr) hin, if_pos rfl]
  | cons calldata rest => rw [getMemoryB32_prepared (leafBase_and_31 addr) hin, proofBlock_noProof, andThen_refused]

/-- A fetch that crosses a leaf reads its left leaf and is then refused (R75). -/
theorem fetch_of_crosses (hpc : 28 < s.pc.toNat % 32) :
    fetch s = andThen (getMemoryB32 s (leafBase s.pc) 0) fun _ => .refused .noProofProvided := by
  have hcross : leafBase (lastByte s.pc 4) ≠ leafBase s.pc := by
    rw [Ne, one_leaf_iff s.pc 4 (by decide) (by decide), leafOffset_eq]
    omega
  simp only [fetch, loadMem, if_neg hcross, getMemoryB32_noProof, andThen_refused, andThen_assoc]

theorem fetch_of_crosses_honest (hh : HonestHost s) (hpc : 28 < s.pc.toNat % 32) :
    fetch s = .refused .noProofProvided := by
  rw [fetch_of_crosses hpc, getMemoryB32_honest s s.pc 0 hh.1 hh.2 (by decide), andThen_next]

/-- A fetch reverts with nothing but `badProof`, and with an honest host with nothing. -/
theorem fetch_fault {e : Fault} (h : fetch s = .fault e) : e = .badProof ∧ ¬HonestHost s := by
  constructor
  · obtain hload | ⟨v, -, hv⟩ := andThen_eq_fault.mp h
    · exact loadMem_fault hload
    · cases hv
  · intro hh
    by_cases hpc : s.pc.toNat % 32 ≤ 28
    · rw [fetch_of_fits hh hpc] at h
      cases h
    · rw [fetch_of_crosses_honest hh (by omega)] at h
      cases h

/-- Over another root than that of the host's memory every fetch reverts (R64). -/
theorem fetch_of_not_committed (hin : s.inputs = []) (hc : ¬Committed s) : fetch s = .fault .badProof := by
  rw [fetch, loadMem, getMemoryB32_prepared_none s s.pc 0 hin (by decide),
    if_neg (show s.memRoot ≠ merkleRoot s.mem from hc), andThen_fault, andThen_fault]

end

/-- Settles O18: the three cases of the fetch. -/
theorem fetchReadsMemory : Obligations.FetchReadsMemory := by
  refine fun s => ⟨fetch_of_fits, fetch_of_crosses_honest, fun hpc w h => ?_⟩
  rw [fetch_of_crosses hpc] at h
  obtain ⟨leaf, -, hrefused⟩ := andThen_eq_next.mp h
  cases hrefused

/-! ### What makes an instruction revert (R341) -/

/-- Why executing `i` in `s` reverts. -/
inductive Cause (i : Instr) (s : State) : Fault → Prop
  | badBlock (h : ¬HonestHost s) : Cause i s .badProof
  | oracle (hi : isEcall i = true) (num : argA7 s = 63) (fd : argA0 s = 5)
      (h : oracleRead s s.preimageKey s.preimageOffset = .error) : Cause i s .badProof
  | word {e : Fault} (h : Raises i e) : Cause i s e
  | syscall (hi : isEcall i = true) (num : argA7 s ∉ syscallNumbers) : Cause i s .unknownSyscall
  | rlimit (hi : isEcall i = true) (num : argA7 s = 163) (resource : argA0 s ≠ 7) : Cause i s .unknownRlimit

section
variable {i : Instr} {s : State} {e : Fault}

/-- No word raises the revert of a bad block or one of the two unreachable ones. -/
theorem Raises.ne (h : Raises i e) : e ≠ .badProof ∧ e ≠ .unalignedMerkle ∧ e ≠ .invalidRegister := by
  cases h <;> decide

theorem loadMem_cause {addr : Word} {size : Nat} {signed : Bool} (h1 : 1 ≤ size) (hs : size ≤ 32)
    (h : loadMem s addr size signed dataLeft dataRight = .fault e) : Cause i s e := by
  cases loadMem_fault h
  refine .badBlock fun hh => ?_
  rw [loadMem_honest s addr size signed _ _ hh.1 hh.2 h1 hs dataLeft_ne_noProof (.inl dataRight_ne_noProof)] at h
  cases h

theorem storeMem_cause {addr : Word} {size value pR : Nat} (h1 : 1 ≤ size) (hs : size ≤ 32) (hR : pR ≠ noProof)
    (h : storeMem s addr size value dataLeft pR = .fault e) : Cause i s e := by
  cases storeMem_fault h
  refine .badBlock fun hh => ?_
  rw [storeMem_written hh h1 hs hR] at h
  cases h

theorem readPreimageValue_cause {addr count : Word} (hi : isEcall i = true) (num : argA7 s = 63) (fd : argA0 s = 5)
    (h : readPreimageValue s addr count = .fault e) : Cause i s e := by
  unfold readPreimageValue at h
  split at h
  case h_1 herror =>
    cases h
    exact .oracle hi num fd herror
  case h_2 =>
    split_ifs at h
    obtain hpatch | ⟨t, -, ht⟩ := andThen_eq_fault.mp h
    · cases patchMemory_fault hpatch
      refine .badBlock fun hh => ?_
      rw [patchMemory_honest s addr _ _ _ dataLeft hh.1 hh.2 dataLeft_ne_noProof] at hpatch
      cases hpatch
    · cases ht

theorem writePreimageKey_cause {addr count : Word} (h : writePreimageKey s addr count = .fault e) : Cause i s e := by
  obtain hget | ⟨leaf, -, hleaf⟩ := andThen_eq_fault.mp h
  · cases getMemoryB32_fault hget
    refine .badBlock fun hh => ?_
    rw [getMemoryB32_honest s addr dataLeft hh.1 hh.2 dataLeft_ne_noProof] at hget
    cases hget
  · cases hleaf

theorem syscall_cause (hi : isEcall i = true) (h : syscall s = .fault e) : Cause i s e := by
  cases syscall_shape s with
  | exit num run => cases (run (hostFields s)).symm.trans h
  | answer n err num run => cases (run (hostFields s)).symm.trans h
  | mmap num run => cases (run (hostFields s)).symm.trans h
  | store value num run =>
    obtain hstore | ⟨t, -, ht⟩ := andThen_eq_fault.mp ((run (hostFields s)).symm.trans h)
    · exact storeMem_cause (by decide) (by decide) dataRight_ne_noProof hstore
    · cases ht
  | readValue num fd run =>
    obtain hread | ⟨r, -, hr⟩ := andThen_eq_fault.mp ((run (hostFields s)).symm.trans h)
    · exact readPreimageValue_cause hi num fd hread
    · cases hr
  | writeKey num fd run =>
    obtain hwrite | ⟨r, -, hr⟩ := andThen_eq_fault.mp ((run (hostFields s)).symm.trans h)
    · exact writePreimageKey_cause hwrite
    · cases hr
  | otherLimit num resource run =>
    cases (run (hostFields s)).symm.trans h
    exact .rlimit hi num resource
  | unknown num run =>
    cases (run (hostFields s)).symm.trans h
    exact .syscall hi num

/-- Every revert of an instruction has one of the causes. -/
theorem exec_cause (h : exec i s = .fault e) : Cause i s e := by
  cases exec_shape i with
  | compute rd v kind run blind => cases (run s).symm.trans h
  | skip kind run => cases (run s).symm.trans h
  | branch taken imm kind run blind => cases (run s).symm.trans h
  | jump rd target kind run blind => cases (run s).symm.trans h
  | load rd rs1 imm size signed h1 h8 kind run =>
    obtain hload | ⟨v, -, hv⟩ := andThen_eq_fault.mp ((run s).symm.trans h)
    · exact loadMem_cause h1 (by omega) hload
    · cases hv
  | store rs1 rs2 imm size h1 h8 kind run =>
    obtain hstore | ⟨t, -, ht⟩ := andThen_eq_fault.mp ((run s).symm.trans h)
    · exact storeMem_cause h1 (by omega) dataRight_ne_noProof hstore
    · cases ht
  | loadReserved rd rs1 size h1 h8 kind run =>
    obtain hload | ⟨v, -, hv⟩ := andThen_eq_fault.mp ((run s).symm.trans h)
    · exact loadMem_cause h1 (by omega) hload
    · cases hv
  | storeConditional rd rs1 rs2 size h1 h8 kind run =>
    have h := (run s).symm.trans h
    unfold storeConditional at h
    split_ifs at h
    obtain hstore | ⟨t, -, ht⟩ := andThen_eq_fault.mp h
    · exact storeMem_cause h1 (by omega) atomicRight_ne_noProof hstore
    · cases ht
  | atomic rd rs1 size src f h1 h8 kind run blind =>
    obtain hload | ⟨old, -, hrest⟩ := andThen_eq_fault.mp ((run s).symm.trans h)
    · exact loadMem_cause h1 (by omega) hload
    obtain hstore | ⟨t, -, ht⟩ := andThen_eq_fault.mp hrest
    · exact storeMem_cause h1 (by omega) atomicRight_ne_noProof hstore
    · cases ht
  | ecall hi run => exact syscall_cause hi ((run s).symm.trans h)
  | raise e' hi cause run =>
    cases (run s).symm.trans h
    exact .word cause
  | refuse r hi run => cases (run s).symm.trans h

end

/-! ### How a step ends (R41) -/

section
variable {s s1 : State}

theorem deliverInput_ne_fault {e : Fault} : deliverInput s ≠ .fault e := by
  intro h
  unfold deliverInput at h
  split at h
  · split at h <;> cases h
  · split_ifs at h

/-- A step reverts in the fetch or in the instruction. -/
theorem step_fault {e : Fault} (h : step s = .fault e) : ∃ s1, deliverInput s = .next s1 ∧
    (fetch s1 = .fault e ∨ ∃ w, fetch s1 = .next w ∧ exec (decode w) s1 = .fault e) := by
  obtain hinput | ⟨s1, h1, hrest⟩ := andThen_eq_fault.mp h
  · exact (deliverInput_ne_fault hinput).elim
  split_ifs at hrest
  obtain hfetch | ⟨w, hw, hexec⟩ := andThen_eq_fault.mp hrest
  · exact ⟨s1, h1, .inl hfetch⟩
  obtain hexec | ⟨s2, -, hout⟩ := andThen_eq_fault.mp hexec
  · exact ⟨s1, h1, .inr ⟨w, hw, hexec⟩⟩
  · cases hout

theorem recordUsable_iff : recordUsable s1 = true ↔ s1.exited = 0 ∧ s1.regs[0] = 0 := by
  simp [recordUsable]

/-- From a usable record that is not exited, the step is the fetch and what follows it. -/
theorem step_of_usable (h1 : deliverInput s = .next s1) (he : s1.exited = 0) (hx : s1.regs[0] = 0) :
    step s = andThen (fetch s1) fun w => andThen (exec (decode w) s1) fun s2 => .next (deliverOutput s2) := by
  have hne : s1.exited ≠ 1 := by rw [he]; decide
  rw [step, h1, andThen_next, if_neg hne, recordUsable_iff.mpr ⟨he, hx⟩, if_neg (by decide)]

theorem step_of_unusable (h1 : deliverInput s = .next s1) (hne : s1.exited ≠ 1)
    (hu : s1.exited ≠ 0 ∨ s1.regs[0] ≠ 0) : step s = .refused .illFormedState := by
  have hfalse : recordUsable s1 = false := by
    rw [Bool.eq_false_iff, Ne, recordUsable_iff, not_and_or]
    exact hu
  rw [step, h1, andThen_next, if_neg hne, if_pos hfalse]

end

/-- Settles O10: the tests before the fetch, then the fetch. -/
theorem stepStopsBeforeExecuting : Obligations.StepStopsBeforeExecuting := by
  refine fun s s1 h1 hne => ⟨step_of_unusable h1 hne, fun he hx => ⟨fun e h => ⟨?_, (fetch_fault h).1⟩, fun r h => ?_⟩⟩
  · rw [step_of_usable h1 he hx, h, andThen_fault]
  · rw [step_of_usable h1 he hx, h, andThen_refused]

/-- Settles O19: the step runs the fetched word, which is the word of `i` where that stands at pc. -/
theorem stepRunsDecodedInstruction : Obligations.StepRunsDecodedInstruction := by
  have hrun (s s1 w) (h1 : deliverInput s = .next s1) (he : s1.exited = 0) (hx : s1.regs[0] = 0)
      (hw : fetch s1 = .next w) : step s = andThen (exec (decode w) s1) fun s2 =>
        .next { s2 with inputs := s2.inputs.tail, stateHash := some (keccak256 s2.toRecord.toBytes) } := by
    simp only [step_of_fetch h1 he hx hw, deliverOutput_eq]
  refine ⟨hrun, fun s s1 i hh h1 he hx hpc hwf hword => ?_⟩
  have hfetch := fetch_of_fits (deliverInput_honestHost h1 hh) hpc
  rw [hrun s s1 _ h1 he hx hfetch, hword, decode_encode hwf]

/-- Settles O27: an honest block verifies, which leaves the oracle; over another root the fetch reverts. -/
theorem honestHostNeverBadProof : Obligations.HonestHostNeverBadProof := by
  refine ⟨fun s hh h => ?_, fun s s1 hin hc h1 he hx => ?_⟩
  · obtain ⟨s1, h1, hfetch | ⟨w, hw, hexec⟩⟩ := step_fault h
    · exact ((fetch_fault hfetch).2 (deliverInput_honestHost h1 hh)).elim
    · cases exec_cause hexec with
      | badBlock hno => exact (hno (deliverInput_honestHost h1 hh)).elim
      | oracle hi num fd herror => exact ⟨s1, w, h1, hw, hi, num, fd, herror⟩
      | word hraises => exact (hraises.ne.1 rfl).elim
  · obtain ⟨c, hs1⟩ := deliverInput_of_no_inputs h1 hin
    have hfetch : fetch s1 = .fault .badProof := by
      rw [hs1]
      exact fetch_of_not_committed (s := { s with stepCounter := c }) hin hc
    rw [step_of_usable h1 he hx, hfetch, andThen_fault]

/-- Settles O26: the causes of an instruction's reverts; neither they nor a fetch give the two unreachable codes. -/
theorem revertsHaveTheirCauses : Obligations.RevertsHaveTheirCauses := by
  refine ⟨fun i s f h => ?_, fun s => ⟨fun h => ?_, fun h => ?_⟩, rfl⟩
  · cases exec_cause h with
    | badBlock _ => exact .inl rfl
    | oracle _ _ _ _ => exact .inl rfl
    | word hraises =>
      cases hraises with
      | system4 rd rs1 imm => exact .inr (.inl ⟨rfl, rd, rs1, imm, rfl⟩)
      | amoSize op f3 rd rs1 rs2 aq rl => exact .inr (.inr (.inl ⟨rfl, op, f3, rd, rs1, rs2, aq, rl, rfl⟩))
      | amoOp op f3 rd rs1 rs2 aq rl => exact .inr (.inr (.inr (.inl ⟨rfl, op, f3, rd, rs1, rs2, aq, rl, rfl⟩)))
      | unknown w => exact .inr (.inr (.inr (.inr (.inl ⟨rfl, w, rfl⟩))))
    | syscall hi num => exact .inr (.inr (.inr (.inr (.inr (.inl ⟨rfl, hi, num⟩)))))
    | rlimit hi num resource => exact .inr (.inr (.inr (.inr (.inr (.inr ⟨rfl, hi, num, resource⟩)))))
  · obtain ⟨s1, -, hfetch | ⟨w, -, hexec⟩⟩ := step_fault h
    · cases (fetch_fault hfetch).1
    · cases exec_cause hexec with
      | word hraises => exact hraises.ne.2.1 rfl
  · obtain ⟨s1, -, hfetch | ⟨w, -, hexec⟩⟩ := step_fault h
    · cases (fetch_fault hfetch).1
    · cases exec_cause hexec with
      | word hraises => exact hraises.ne.2.2 rfl

end Sys2Proof.Machine

/-! The syscalls (47_syscalls.md R264 to R277) and the pre-image oracle glue (R281, R282): each number leads to its call,
and each call to its result. -/

namespace Sys2Proof.Machine

/-! ### Calls without memory -/

/-- Clearing the low twelve bits rounds down to a multiple of 4096. -/
theorem and_not_4095 (x : Word) : x &&& ~~~4095#64 = BitVec.ofNat 64 (x.toNat / 4096 * 4096) := by
  have hshift : x &&& ~~~4095#64 = x >>> 12 <<< 12 := by
    apply BitVec.eq_of_getLsbD_eq
    intro i hi
    have hbit : (4095#64).getLsbD i = decide (i < 12) := by
      rw [BitVec.getLsbD_ofNat, show 4095 = 2 ^ 12 - 1 from rfl, Nat.testBit_two_pow_sub_one]
      simp [hi]
    rw [BitVec.getLsbD_and, BitVec.getLsbD_not, hbit, BitVec.getLsbD_shiftLeft, BitVec.getLsbD_ushiftRight]
    by_cases h12 : i < 12
    · simp [h12]
    · simp [hi, h12, show 12 + (i - 12) = i by omega]
  rw [hshift]
  apply BitVec.eq_of_toNat_eq
  rw [BitVec.toNat_shiftLeft, BitVec.toNat_ushiftRight, BitVec.toNat_ofNat, Nat.shiftRight_eq_div_pow, Nat.shiftLeft_eq]

/-- The page rounding of mmap (R265). -/
theorem roundToPage_eq (length : Word) :
    roundToPage length = BitVec.ofNat 64 ((length.toNat + 4095) % 2 ^ 64 / 4096 * 4096) := by
  rw [roundToPage, and_not_4095, BitVec.toNat_add]
  rfl

section
variable {s : State}

theorem sysMmap_hint (h : argA0 s ≠ 0) : sysMmap s = .next (withReturn s (argA0 s) 0) := if_neg h

theorem sysMmap_anonymous (h : argA0 s = 0) : sysMmap s = .next { withReturn s s.heap 0 with
    heap := s.heap + BitVec.ofNat 64 (((argA1 s).toNat + 4095) % 2 ^ 64 / 4096 * 4096) } := by
  rw [sysMmap, if_pos h, roundToPage_eq, syscallReturn_eq]
  rfl

theorem sysFcntl_otherCommand (h : argA1 s ≠ 3) : sysFcntl s = .next (withReturn s minusOne errInval) := if_neg h

theorem sysFcntl_readable (h : argA1 s = 3) (hfd : argA0 s ∈ ([0, 3, 5] : List Word)) :
    sysFcntl s = .next (withReturn s 0 0) := by
  rw [sysFcntl, if_pos h, if_pos (by simpa using hfd), syscallReturn_eq]

theorem sysFcntl_writable (h : argA1 s = 3) (hfd : argA0 s ∈ ([1, 2, 4, 6] : List Word)) :
    sysFcntl s = .next (withReturn s 1 0) := by
  have hfd : argA0 s = 1 ∨ argA0 s = 2 ∨ argA0 s = 4 ∨ argA0 s = 6 := by simpa using hfd
  have hno : ¬(argA0 s = 0 ∨ argA0 s = 3 ∨ argA0 s = 5) := by rcases hfd with h | h | h | h <;> simp [h]
  rw [sysFcntl, if_pos h, if_neg hno, if_pos hfd, syscallReturn_eq]

theorem sysFcntl_otherDescriptor (h : argA1 s = 3) (hfd : argA0 s ∉ ([0, 1, 2, 3, 4, 5, 6] : List Word)) :
    sysFcntl s = .next (withReturn s minusOne errBadf) := by
  simp only [List.mem_cons, List.not_mem_nil, or_false, not_or] at hfd
  obtain ⟨h0, h1, h2, h3, h4, h5, h6⟩ := hfd
  simp only [sysFcntl, h, h0, h1, h2, h3, h4, h5, h6, if_true, or_self, if_false, syscallReturn_eq]

end

/-- Settles O50: one number and one case of its call after the other. -/
theorem syscallsWithoutMemory : Obligations.SyscallsWithoutMemory := by
  intro rd rs1 s
  refine ⟨?brk, ?hint, ?anonymous, ?readable, ?writable, ?otherDescriptor, ?otherCommand, ?openat, ?zero⟩
  case brk => exact fun h => runs_of_syscall (syscall_brk h)
  case hint => exact fun h h0 => runs_of_syscall ((syscall_mmap h).trans (sysMmap_hint h0))
  case anonymous => exact fun h h0 => runs_of_syscall ((syscall_mmap h).trans (sysMmap_anonymous h0))
  case readable => exact fun h h3 hfd => runs_of_syscall ((syscall_fcntl h).trans (sysFcntl_readable h3 hfd))
  case writable => exact fun h h3 hfd => runs_of_syscall ((syscall_fcntl h).trans (sysFcntl_writable h3 hfd))
  case otherDescriptor =>
    exact fun h h3 hfd => runs_of_syscall ((syscall_fcntl h).trans (sysFcntl_otherDescriptor h3 hfd))
  case otherCommand => exact fun h h3 => runs_of_syscall ((syscall_fcntl h).trans (sysFcntl_otherCommand h3))
  case openat => exact fun h => runs_of_syscall (syscall_openat h)
  case zero =>
    intro h
    simp only [List.mem_cons, List.not_mem_nil, or_false] at h
    rcases h with h | h | h | h | h
    · exact runs_of_syscall (syscall_schedGetaffinity h)
    · exact runs_of_syscall (syscall_rtSigaction h)
    · exact runs_of_syscall (syscall_rtSigprocmask h)
    · exact runs_of_syscall (syscall_sigaltstack h)
    · exact runs_of_syscall (syscall_gettid h)

/-- Settles O53: the list of the statement is `syscallNumbers`. -/
theorem unknownSyscallReverts : Obligations.UnknownSyscallReverts :=
  fun _ _ _ h => runs_of_syscall (syscall_unknown h)

/-! ### Descriptors (R266, R267) -/

section
variable {s : State}

theorem sysRead_stdin (h : argA0 s = 0) : sysRead s = .next (withReturn s 0 0) := if_pos h

theorem sysRead_hint (h : argA0 s = 3) : sysRead s = .next (withReturn s (argA2 s) 0) := by
  rw [sysRead, if_neg (by rw [h]; decide), if_pos h, syscallReturn_eq]

theorem sysRead_preimage (h : argA0 s = 5) : sysRead s =
    andThen (readPreimageValue s (argA1 s) (argA2 s)) fun r => .next (withReturn r.1 r.2 0) := by
  rw [sysRead, if_neg (by rw [h]; decide), if_neg (by rw [h]; decide), if_pos h]
  rfl

theorem sysRead_other (h : argA0 s ∉ ([0, 3, 5] : List Word)) : sysRead s = .next (withReturn s minusOne errBadf) := by
  simp only [List.mem_cons, List.not_mem_nil, or_false, not_or] at h
  rw [sysRead, if_neg h.1, if_neg h.2.1, if_neg h.2.2, syscallReturn_eq]

theorem sysWrite_claimed (h : argA0 s ∈ ([1, 2, 4] : List Word)) : sysWrite s = .next (withReturn s (argA2 s) 0) := by
  rw [sysWrite, if_pos (by simpa using h), syscallReturn_eq]

theorem sysWrite_key (h : argA0 s = 6) : sysWrite s =
    andThen (writePreimageKey s (argA1 s) (argA2 s)) fun r => .next (withReturn r.1 r.2 0) := by
  rw [sysWrite, if_neg (by rw [h]; decide), if_pos h]
  rfl

theorem sysWrite_other (h : argA0 s ∉ ([1, 2, 4, 6] : List Word)) :
    sysWrite s = .next (withReturn s minusOne errBadf) := by
  simp only [List.mem_cons, List.not_mem_nil, or_false, not_or] at h
  obtain ⟨h1, h2, h4, h6⟩ := h
  rw [sysWrite, if_neg (by tauto), if_neg h6, syscallReturn_eq]

end

/-- Settles O51: the descriptors of the two calls. -/
theorem syscallDescriptors : Obligations.SyscallDescriptors := fun _ _ _ =>
  ⟨fun h hfd => runs_of_syscall ((syscall_read h).trans (sysRead_stdin hfd)),
    fun h hfd => runs_of_syscall ((syscall_read h).trans (sysRead_hint hfd)),
    fun h hfd => runs_of_syscall ((syscall_read h).trans (sysRead_other hfd)),
    fun h hfd => runs_of_syscall ((syscall_write h).trans (sysWrite_claimed hfd)),
    fun h hfd => runs_of_syscall ((syscall_write h).trans (sysWrite_other hfd))⟩

/-! ### Calls that store (R272, R273) -/

section
variable {s : State}

theorem sysGetrlimit_other (h : argA0 s ≠ 7) : sysGetrlimit s = .fault .unknownRlimit := if_pos h

theorem sysGetrlimit_nofile (h : argA0 s = 7) : sysGetrlimit s =
    andThen (storeMem s (argA1 s) 16 (pairValue rlimitValue rlimitValue) dataLeft dataRight) (syscallReturn 0 0) :=
  if_neg (not_not.mpr h)

/-- Sixteen bytes stored with an honest host, and the call's result. -/
theorem storePair_written (hh : HonestHost s) {value : Nat} {bytes : List Byte}
    (hbytes : ∀ j, j < 16 → valueByte value j = bytes.getD j 0) (addr : Word) :
    andThen (storeMem s addr 16 value dataLeft dataRight) (syscallReturn 0 0) =
      .next (withReturn (written s addr (fun j => bytes.getD j 0) 16) 0 0) := by
  rw [storeMem_written hh (by decide) (by decide) dataRight_ne_noProof, andThen_next, written_congr hbytes,
    syscallReturn_eq]

end

/-- Settles O52: both calls store a pair of u64, whose bytes are those printed. -/
theorem syscallsThatStore : Obligations.SyscallsThatStore := by
  intro rd rs1 s
  refine ⟨fun h => runs_of_syscall (syscall_clockGettime h), fun h hh => ?_,
    fun h h7 => runs_of_syscall ((syscall_getrlimit h).trans (sysGetrlimit_nofile h7)), fun h h7 hh => ?_,
    fun h h7 => runs_of_syscall ((syscall_getrlimit h).trans (sysGetrlimit_other h7))⟩
  · exact (syscall_clockGettime h).trans (storePair_written hh (by decide) _)
  · exact ((syscall_getrlimit h).trans (sysGetrlimit_nofile h7)).trans (storePair_written hh (by decide) _)

/-! ### The pre-image key (R281) -/

/-- Byte `j` from the low end of a big-endian value of `n` bytes. -/
theorem valueByte_beValue (n j : Nat) (f : Nat → Byte) :
    valueByte (beValue n f) j = if j < n then f (n - 1 - j) else 0 := by
  apply BitVec.eq_of_toNat_eq
  rw [toNat_valueByte]
  split
  · have hdiv := beValue_div n (n - 1 - j + 1) f (by omega)
    rw [show n - (n - 1 - j + 1) = j by omega, beValue] at hdiv
    have := (f (n - 1 - j)).isLt
    rw [hdiv]
    omega
  · have hlt : beValue n f < 256 ^ j := (beValue_lt n f).trans_le (Nat.pow_le_pow_right (by decide) (by omega))
    rw [Nat.div_eq_of_lt hlt]
    rfl

/-- The bytes of a shifted 32-byte string. -/
theorem byteOf_shiftLeft (key : Bytes32) (n k : Nat) (hk : k < 32) :
    byteOf (key <<< (8 * n)) k = if k + n < 32 then byteOf key (k + n) else 0 := by
  have hbyte (b : Bytes32) (j : Nat) : byteOf b j = b.extractLsb' (8 * (31 - j)) 8 := rfl
  rw [hbyte, hbyte]
  apply BitVec.eq_of_getLsbD_eq
  intro i hi
  split
  · rw [BitVec.getLsbD_extractLsb', BitVec.getLsbD_extractLsb', BitVec.getLsbD_shiftLeft]
    simp [hi, show 8 * (31 - k) + i < 256 by omega, show ¬8 * (31 - k) + i < 8 * n by omega,
      show 8 * (31 - k) + i - 8 * n = 8 * (31 - (k + n)) + i by omega]
  · simp [hi, show 8 * (31 - k) + i < 8 * n by omega]

theorem byteOf_or (a b : Bytes32) (k : Nat) : byteOf (a ||| b) k = byteOf a k ||| byteOf b k := by
  have hbyte (c : Bytes32) : byteOf c k = c.extractLsb' (8 * (31 - k)) 8 := rfl
  rw [hbyte, hbyte, hbyte, BitVec.extractLsb'_or]

/-- The bytes of a key with `n` bytes appended (R22, R281). -/
theorem byteOf_appendKey (key : Bytes32) (n : Nat) (f : Nat → Byte) (hn : n ≤ 32) (k : Nat) (hk : k < 32) :
    byteOf (appendKey key n f) k = if k + n < 32 then byteOf key (k + n) else f (k + n - 32) := by
  have hlt : beValue n f < 2 ^ 256 :=
    (beValue_lt n f).trans_le ((Nat.pow_le_pow_right (by decide) hn).trans_eq (by norm_num))
  have hlow : byteOf (BitVec.ofNat 256 (beValue n f)) k = if 31 - k < n then f (n - 1 - (31 - k)) else 0 := by
    rw [byteOf, BitVec.toNat_ofNat, Nat.mod_eq_of_lt hlt, valueByte_beValue]
  rw [appendKey, byteOf_or, byteOf_shiftLeft _ _ _ hk, hlow]
  split
  · rw [if_neg (by omega)]
    exact BitVec.or_zero
  · rw [if_pos (by omega), show n - 1 - (31 - k) = k + n - 32 by omega]
    exact BitVec.zero_or

/-- Settles O54: the leaf read, then the bytes appended to the key. -/
theorem preimageKeyWrite : Obligations.PreimageKeyWrite := by
  rintro rd rs1 s off n h64 h6 rfl rfl
  have hexec : exec (.ecall rd rs1) s = andThen (getMemoryB32 s (getReg s 11 &&& ~~~31#64) 1) fun leaf =>
      .next { withReturn s (BitVec.ofNat 64 (min (getReg s 12).toNat (32 - (getReg s 11).toNat % 32))) 0 with
        preimageKey := appendKey s.preimageKey (min (getReg s 12).toNat (32 - (getReg s 11).toNat % 32))
          fun j => byteOf leaf ((getReg s 11).toNat % 32 + j)
        preimageOffset := 0 } := by
    refine ((syscall_write h64).trans (sysWrite_key h6)).trans ?_
    rw [writePreimageKey, andThen_assoc, clippedCount, leafOffset_eq]
    rfl
  refine ⟨fun e he => by rw [hexec, he, andThen_fault], fun r hr => by rw [hexec, hr, andThen_refused],
    fun leaf hleaf => ?_, fun hh => ?_⟩
  · refine ⟨appendKey s.preimageKey (min (getReg s 12).toNat (32 - (getReg s 11).toNat % 32))
        (fun j => byteOf leaf ((getReg s 11).toNat % 32 + j)), fun k hk => ?_, by rw [hexec, hleaf, andThen_next]⟩
    exact byteOf_appendKey _ _ _ ((min_le_right _ _).trans (Nat.sub_le _ _)) k hk
  · exact ⟨_, getMemoryB32_honest s (getReg s 11) 1 hh.1 hh.2 (by decide), fun k hk => byteOf_leafAt _ _ _ hk⟩

/-! ### The pre-image value (R282) -/

section
variable {s : State}

theorem readPreimageValue_error {addr count : Word} (h : oracleRead s s.preimageKey s.preimageOffset = .error) :
    readPreimageValue s addr count = .fault .badProof := by
  simp only [readPreimageValue, h, revert]

theorem readPreimageValue_tooLong {addr count : Word} {chunk : Bytes32} {length : Byte}
    (h : oracleRead s s.preimageKey s.preimageOffset = .data chunk length) (hlen : 32 < length.toNat) :
    readPreimageValue s addr count = .refused .oracleLength := by
  simp only [readPreimageValue, h, hlen, if_true]

theorem readPreimageValue_end {addr count : Word} {chunk : Bytes32} {length : Byte}
    (h : oracleRead s s.preimageKey s.preimageOffset = .data chunk length) (hlen : length = 0) :
    readPreimageValue s addr count = .next (s, 0) := by
  subst hlen
  simp only [readPreimageValue, h]
  rfl

theorem readPreimageValue_data {addr count : Word} {chunk : Bytes32} {length : Byte}
    (h : oracleRead s s.preimageKey s.preimageOffset = .data chunk length) (hpos : 0 < length.toNat)
    (hlen : length.toNat ≤ 32) {n : Nat} (hn : n = min (clippedCount addr count) length.toNat) :
    readPreimageValue s addr count =
      andThen (patchMemory s (leafBase addr) (leafOffset addr) n (byteOf chunk) dataLeft) fun t =>
        .next ({ t with preimageOffset := s.preimageOffset + BitVec.ofNat 64 n }, BitVec.ofNat 64 n) := by
  have hne : length ≠ 0 := fun h0 => by rw [h0] at hpos; exact absurd hpos (by decide)
  subst hn
  simp only [readPreimageValue, h, if_neg (not_lt.mpr hlen), if_neg hne]
  refine andThen_congr fun t ht => ?_
  obtain ⟨f, r, rfl, -⟩ := patchMemory_stored ht
  rfl

/-- A leaf that can be read can be written (R65). -/
theorem setMemoryB32_of_get {addr : Word} {leaf : Bytes32} {p : Nat}
    (h : getMemoryB32 s (leafBase addr) p = .next leaf) (newLeaf : Bytes32) (m : Memory) :
    ∃ t, setMemoryB32 s (leafBase addr) newLeaf p m = .next t := by
  cases hin : s.inputs with
  | nil =>
    rw [getMemoryB32_unprepared (leafBase_and_31 addr) hin] at h
    split_ifs at h with hp
    rw [setMemoryB32_unprepared (leafBase_and_31 addr) hin, if_neg hp]
    exact ⟨_, rfl⟩
  | cons calldata rest =>
    rw [getMemoryB32_prepared (leafBase_and_31 addr) hin] at h
    obtain ⟨block, hblock, -⟩ := andThen_eq_next.mp h
    rw [setMemoryB32_prepared (leafBase_and_31 addr) hin, hblock, andThen_next]
    exact ⟨_, rfl⟩

/-- A listed query is answered from the table (R39). -/
theorem oracleRead_listed {e : OracleEntry} (he : e ∈ s.oracleTable) :
    ∃ e' ∈ s.oracleTable, e'.key = e.key ∧ e'.offset = e.offset ∧ oracleRead s e.key e.offset = e'.answer := by
  cases hfind : s.oracleTable.find? (fun e' => e'.key == e.key && e'.offset == e.offset) with
  | none =>
    have hno := List.find?_eq_none.mp hfind e he
    simp at hno
  | some e' =>
    have hmatch := List.find?_some hfind
    simp only [Bool.and_eq_true, beq_iff_eq] at hmatch
    exact ⟨e', List.mem_of_find?_eq_some hfind, hmatch.1, hmatch.2, by rw [oracleRead, hfind]⟩

end

/-- Settles O55: the oracle's answer by its kinds; a chunk is patched into its leaf. -/
theorem preimageValueRead : Obligations.PreimageValueRead := by
  intro rd rs1 s h63 h5
  have hexec : exec (.ecall rd rs1) s = andThen (readPreimageValue s (getReg s 11) (getReg s 12)) fun r =>
      .next (withReturn r.1 r.2 0) := (syscall_read h63).trans (sysRead_preimage h5)
  refine ⟨fun herror => by rw [hexec, readPreimageValue_error herror, andThen_fault], fun chunk length hdata =>
    ⟨fun hlen => by rw [hexec, readPreimageValue_tooLong hdata hlen, andThen_refused],
      fun hlen => by rw [hexec, readPreimageValue_end hdata hlen, andThen_next], fun hpos hlen n hn => ?_⟩,
    fun e he hkey hoffset => hkey ▸ hoffset ▸ oracleRead_listed he⟩
  have hcount : n = min (clippedCount (getReg s 11) (getReg s 12)) length.toNat := by
    rw [hn, clippedCount, leafOffset_eq]
  have hrun : exec (.ecall rd rs1) s =
      andThen (patchMemory s (leafBase (getReg s 11)) (leafOffset (getReg s 11)) n (byteOf chunk) 1) fun t =>
        .next { withReturn t (BitVec.ofNat 64 n) 0 with preimageOffset := s.preimageOffset + BitVec.ofNat 64 n } := by
    rw [hexec, readPreimageValue_data hdata hpos hlen hcount, andThen_assoc]
    rfl
  have hget : leafBase (getReg s 11) = getReg s 11 &&& ~~~31#64 := rfl
  refine ⟨hrun, fun e he => ?_, fun r hr => ?_, fun leaf hleaf => ?_, fun hh => ?_⟩
  · rw [hrun, patchMemory, hget, he, andThen_fault, andThen_fault]
  · rw [hrun, patchMemory, hget, hr, andThen_refused, andThen_refused]
  · obtain ⟨t, ht⟩ := setMemoryB32_of_get hleaf
      (patchLeaf leaf (leafOffset (getReg s 11)) n (byteOf chunk)) (s.mem.store (getReg s 11) (byteOf chunk) n)
    refine ⟨_, t, fun k hk => ?_, ht, ?_⟩
    · rw [byteOf_patchLeaf _ _ _ _ _ hk, leafOffset_eq]
    · rw [hrun, patchMemory, leafBase_add_leafOffset,
        show getMemoryB32 s (leafBase (getReg s 11)) 1 = .next leaf from hleaf, andThen_next, ht, andThen_next]
  · rw [hrun, patchMemory_honest s (getReg s 11) _ _ _ 1 hh.1 hh.2 (by decide), leafBase_add_leafOffset, andThen_next]
    rfl

end Sys2Proof.Machine

/-! Decoding and executing one word: upper immediates and jumps (45_upper_jumps.md), SYSTEM, CSR, FENCE and
floating-point words (46_system_csr.md, 49_fence_fp.md), and the words that are refused or revert (30_encoding.md R111).
Then the reset state (70_reset_and_hazards.md), the register file and what a store does to memory. -/

namespace Sys2Proof.Machine

/-- Settles O45: JAL's offset is even. -/
theorem upperImmediatesAndJumps : Obligations.UpperImmediatesAndJumps := by
  refine fun rd rs1 imm20 off imm f3 s => ⟨runs_encode (i := .lui rd imm20) rfl rfl,
    runs_encode (i := .auipc rd imm20) rfl rfl, runs_encode (i := .jal rd (off ++ 0#1)) ?_ rfl,
    runs_encode (i := .jalr f3 rd rs1 imm) rfl rfl⟩
  rw [WellFormed, BitVec.getLsbD_append]
  rfl

/-- Settles O46: `noOperation` for each word. -/
theorem systemNoOps : Obligations.SystemNoOps := by
  refine fun rd rs1 imm s => ⟨runs_encode (i := .ebreak rd rs1) rfl rfl, fun h0 h1 =>
    runs_encode (i := .rsvSystem0 rd rs1 imm) (by simpa [WellFormed] using ⟨h0, h1⟩) rfl, fun w hw => ?_⟩
  simp only [List.mem_cons, List.not_mem_nil, or_false] at hw
  rcases hw with rfl | rfl | rfl | rfl | rfl <;> rfl

/-- Settles O47: every CSR reads 0. -/
theorem csrInstructions : Obligations.CsrInstructions := by
  refine fun rd rs1 csr s => ⟨?_, ?_, ?_, ?_, ?_, ?_⟩
  exacts [runs_encode (i := .csrrw rd rs1 csr) rfl rfl, runs_encode (i := .csrrs rd rs1 csr) rfl rfl,
    runs_encode (i := .csrrc rd rs1 csr) rfl rfl, runs_encode (i := .csrrwi rd rs1 csr) rfl rfl,
    runs_encode (i := .csrrsi rd rs1 csr) rfl rfl, runs_encode (i := .csrrci rd rs1 csr) rfl rfl]

/-- Settles O48: `noOperation` in each row. -/
theorem fencesAndFloatingPoint : Obligations.FencesAndFloatingPoint := by
  refine fun rd rs1 imm f3 rest s => ⟨?_, ?_, fun h0 h1 => ?_, ?_, ?_, ?_⟩
  exacts [runs_encode (i := .fence rd rs1 imm) rfl rfl, runs_encode (i := .fenceI rd rs1 imm) rfl rfl,
    runs_encode (i := .rsvMiscmem f3 rd rs1 imm) (by simpa [WellFormed] using ⟨h0, h1⟩) rfl,
    runs_encode (i := .fpLoad rest) rfl rfl, runs_encode (i := .fpStore rest) rfl rfl,
    runs_encode (i := .fpOp rest) rfl rfl]

/-- Settles O24: a row's condition is the well-formedness of its term. -/
theorem reservedWordsRefused : Obligations.ReservedWordsRefused := by
  refine fun s rd rs1 rs2 f3 f7 f6 op aq rl imm12 shamt => ⟨fun h => ?_, fun h => ?_, fun h => ?_, fun h => ?_,
    fun h => ?_, fun h => ?_, fun h => ?_⟩
  · refine runs_encode (i := .rsvStore f3 rs1 rs2 imm12) ?_ rfl
    exact (show ∀ f : BitVec 3, f ∈ [4, 5, 6, 7] → decide (4 ≤ f.toNat) = true by decide) f3 h
  · refine runs_encode (i := .rsvBranch f3 rs1 rs2 (imm12 ++ 0#1)) ?_ rfl
    rw [WellFormed, BitVec.getLsbD_append]
    simpa using h
  · refine runs_encode (i := .rsvOpImm f6 f3 rd rs1 shamt) ?_ rfl
    simpa [WellFormed, and_assoc] using h
  · refine runs_encode (i := .rsvOpImm32 f7 f3 rd rs1 rs2) ?_ rfl
    simpa [WellFormed, and_assoc, or_assoc] using h
  · refine runs_encode (i := .rsvOp f7 f3 rd rs1 rs2) ?_ rfl
    simpa [WellFormed, and_assoc] using h
  · refine runs_encode (i := .rsvOp32 f7 f3 rd rs1 rs2) ?_ rfl
    simpa [WellFormed, and_assoc, or_assoc] using h
  · refine runs_encode (i := .rsvAmoWidth op f3 rd rs1 rs2 aq rl) ?_ rfl
    exact (show ∀ f : BitVec 3, f ∈ [4, 5, 6, 7] → decide (4 ≤ f.toNat) = true by decide) f3 h

/-- Settles O25: the words, then the only cause of 0xbadc0de0. -/
theorem subDecodeReverts : Obligations.SubDecodeReverts := by
  refine fun s rd rs1 rs2 imm op aq rl f3 => ⟨runs_encode (i := .rsvSystem4 rd rs1 imm) rfl rfl, fun h => ?_,
    fun h hop => ?_, fun i h => ?_, rfl, rfl, rfl⟩
  · exact runs_encode (i := .rsvAmoSize op f3 rd rs1 rs2 aq rl) (by simpa [WellFormed] using h) rfl
  · refine runs_encode (i := .rsvAmoOp op f3 rd rs1 rs2 aq rl) ?_ rfl
    rw [WellFormed, Bool.and_eq_true, Bool.not_eq_true', List.contains_eq_mem, decide_eq_false_iff_not]
    exact ⟨by simpa using h, hop⟩
  · cases exec_cause h with
    | word hraises =>
      cases hraises with
      | system4 rd rs1 imm => exact ⟨rd, rs1, imm, rfl⟩

end Sys2Proof.Machine

namespace Sys2Proof

/-- Settles O22: sixteen runs of the decoder. -/
theorem decodeSpecWords : Obligations.DecodeSpecWords := by
  unfold Obligations.DecodeSpecWords
  decide

end Sys2Proof

namespace Sys2Proof.Machine

/-! ### Reset, registers, the hash and memory -/

/-- Settles O1: every field is read off; the registers are a constant vector. -/
theorem resetFields : Obligations.ResetFields := by
  refine ⟨rfl, fun i => ?_, rfl, rfl, rfl, rfl, rfl, rfl, rfl, rfl, rfl, rfl, rfl, fun a => rfl⟩
  simp [getReg, State.reset]

theorem merkleRoot_nil : merkleRoot [] = 0x14af5385bcbb1e4738bbae8106046e6e2fca42875aa5c000c582587742bcc748#256 := by
  decide +kernel

/-- Settles O2: the root of the empty memory, computed. -/
theorem resetIsCommitted : Obligations.ResetIsCommitted :=
  ⟨⟨⟨rfl, .inl rfl⟩, wf_nil, rfl, rfl⟩, merkleRoot_nil⟩

/-- Settles O5: the laws of `getReg` and `setReg`. -/
theorem registerFile : Obligations.RegisterFile :=
  fun s i j v => ⟨getReg_zero s, setReg_zero s v, fun hi => if_neg hi,
    fun hi => (getReg_setReg_same s i v).trans (if_neg hi), getReg_setReg_other s i j v, rfl,
    writeReg_slot_zero s.regs i v⟩

/-- Settles O12: three runs of the hash. -/
theorem keccakKnownAnswers : Obligations.KeccakKnownAnswers := by
  unfold Obligations.KeccakKnownAnswers
  decide +kernel

/-- Settles O13: the laws of `Memory.store`. -/
theorem memoryBytesAfterStore : Obligations.MemoryBytesAfterStore :=
  fun m addr f size hsize => ⟨fun j => read_store_same m addr f size j hsize, fun a => read_store_other m addr f size a,
    store_wf m addr f size⟩

end Sys2Proof.Machine

/-! Honest proof blocks in literal calldata (20_memory.md R61, R76): the walk of an honest block gives the root, before and
after its leaf is replaced, so that `loadMem` and `storeMem` act on a byte memory; and a load after a store. -/

namespace Sys2Proof.Machine

/-! ### The walk of an honest block -/

/-- A node and its sibling hash to their parent. -/
theorem hashPair_sibling (m : Memory) (d path : Nat) :
    (if path % 2 = 0 then hashPair (merkleNode m d path) (merkleNode m d (path ^^^ 1))
      else hashPair (merkleNode m d (path ^^^ 1)) (merkleNode m d path)) = merkleNode m (d + 1) (path / 2) := by
  rw [merkleNode]
  split_ifs with heven
  · rw [Nat.xor_one_of_even (Nat.even_iff.mpr heven), Nat.mul_div_cancel' (Nat.dvd_of_mod_eq_zero heven)]
  · have hodd : path % 2 = 1 := Nat.mod_two_ne_zero.mp heven
    rw [Nat.xor_one_of_odd (Nat.odd_iff.mpr hodd), show 2 * (path / 2) = path - 1 by omega,
      show path - 1 + 1 = path by omega]

/-- The walk over `n` levels from `node(d, ·)` up. -/
theorem foldRoot_range' (m : Memory) (n d j : Nat) :
    foldRoot (merkleNode m d (j >>> d)) ((List.range' d n).map fun i => merkleNode m i ((j >>> i) ^^^ 1)) (j >>> d) =
      merkleNode m (d + n) (j >>> (d + n)) := by
  induction n generalizing d with
  | zero => rfl
  | succ n ih =>
    rw [List.range'_succ, List.map_cons, foldRoot, hashPair_sibling, ← Nat.shiftRight_succ, ih, Nat.add_right_comm,
      Nat.add_assoc]

/-- An honest block folds to the root (R76(a)). -/
theorem foldRoot_honest (m : Memory) {j : Nat} (hj : j < 2 ^ 59) :
    foldRoot (leafAt m j) (honestSiblings m j) j = merkleRoot m := by
  have hwalk := foldRoot_range' m merkleDepth 0 j
  rwa [Nat.zero_add, Nat.shiftRight_zero, ← List.range_eq_range', Nat.shiftRight_eq_div_pow,
    Nat.div_eq_of_lt (show j < 2 ^ merkleDepth from hj), ← merkleRoot_eq] at hwalk

/-- A node depends on the bytes below it only. -/
theorem merkleNode_congr {m m' : Memory} {d i : Nat} (h : ∀ a, a / 32 / 2 ^ d = i → m'.read a = m.read a) :
    merkleNode m' d i = merkleNode m d i := by
  induction d generalizing i with
  | zero =>
    refine bytes32_ext _ _ fun k hk => ?_
    rw [merkleNode, merkleNode, byteOf_leafAt _ _ _ hk, byteOf_leafAt _ _ _ hk]
    exact h _ (by omega)
  | succ d ih =>
    have hparent (a : Nat) : a / 32 / 2 ^ (d + 1) = a / 32 / 2 ^ d / 2 := by
      rw [Nat.pow_succ, ← Nat.div_div_eq_div_mul (a / 32)]
    rw [merkleNode, merkleNode, ih fun a ha => h a (by rw [hparent]; omega),
      ih fun a ha => h a (by rw [hparent]; omega)]

/-- Replacing a leaf leaves the siblings of its path alone. -/
theorem honestSiblings_congr {m m' : Memory} {j : Nat} (h : ∀ a, a / 32 ≠ j → m'.read a = m.read a) :
    honestSiblings m' j = honestSiblings m j := by
  refine List.map_congr_left fun i _ => merkleNode_congr fun a ha => h a fun hj => ?_
  rw [hj, Nat.shiftRight_eq_div_pow] at ha
  have hbit := congrArg (Nat.testBit · 0) ha
  simp only [Nat.testBit_zero, Nat.xor_mod_two_eq, decide_eq_decide] at hbit
  omega

/-- A new leaf folds with the old siblings to the new root (R76(b)). -/
theorem foldRoot_replaced {m m' : Memory} {j : Nat} (hj : j < 2 ^ 59) (h : ∀ a, a / 32 ≠ j → m'.read a = m.read a) :
    foldRoot (leafAt m' j) (honestSiblings m j) j = merkleRoot m' := by
  rw [← honestSiblings_congr h, foldRoot_honest m' hj]

/-- Settles O15: the walk before and after the leaf is replaced. -/
theorem honestProofFolds : Obligations.HonestProofFolds :=
  fun m _ _ hj => ⟨foldRoot_honest m hj, merkleRoot_eq m, foldRoot_replaced hj⟩

/-! ### Accesses through honest blocks -/

section
variable {s : State} {calldata : List Byte} {rest : List (List Byte)} {addr : Word} {p : Nat}

theorem leafIndex_lt (addr : Word) : leafIndex addr < 2 ^ 59 := by
  have := addr.isLt
  rw [leafIndex_eq]
  omega

theorem getMemoryB32_honestBlock (hin : s.inputs = calldata :: rest) (hc : Committed s)
    (hb : HonestBlock calldata p s.mem addr) :
    getMemoryB32 s (leafBase addr) p = .next (leafAt s.mem (addr.toNat / 32)) := by
  rw [getMemoryB32_prepared (leafBase_and_31 addr) hin, hb, andThen_next, leafIndex_leafBase, ← leafIndex_eq,
    foldRoot_honest _ (leafIndex_lt addr), if_pos hc.symm]

/-- A patch inside the leaf of an honest block makes `memRoot` the root of the patched memory. -/
theorem patchMemory_honestBlock {off n : Nat} {f : Nat → Byte} (hin : s.inputs = calldata :: rest) (hc : Committed s)
    (hb : HonestBlock calldata p s.mem addr) (hoff : off < 32) (hn : off + n ≤ 32) :
    patchMemory s (leafBase addr) off n f p = .next { s with
      mem := s.mem.store (leafBase addr + BitVec.ofNat 64 off) f n
      root := .digest (merkleRoot (s.mem.store (leafBase addr + BitVec.ofNat 64 off) f n)) } := by
  have hlt := addr.isLt
  have hstart : (leafBase addr + BitVec.ofNat 64 off).toNat = 32 * (addr.toNat / 32) + off := by
    rw [BitVec.toNat_add, toNat_leafBase, BitVec.toNat_ofNat]
    omega
  have hother (a : Nat) (ha : a / 32 ≠ addr.toNat / 32) :
      (s.mem.store (leafBase addr + BitVec.ofNat 64 off) f n).read a = s.mem.read a := by
    refine read_store_other _ _ _ _ _ fun i hi he => ha ?_
    rw [he, byteAddress, BitVec.toNat_add, hstart, BitVec.toNat_ofNat]
    omega
  rw [patchMemory, getMemoryB32_honestBlock hin hc hb, andThen_next,
    setMemoryB32_prepared (leafBase_and_31 addr) hin, hb, andThen_next, leafIndex_leafBase, leafIndex_eq,
    ← leafAt_store_same _ _ _ _ _ _ hstart hn, foldRoot_replaced (leafIndex_eq addr ▸ leafIndex_lt addr) hother]

/-- A load depends on its leaves only. -/
theorem loadMem_congr {t : State} {size pL pR qL qR : Nat} (signed : Bool)
    (hL : getMemoryB32 s (leafBase addr) pL = getMemoryB32 t (leafBase addr) qL)
    (hR : leafBase (lastByte addr size) ≠ leafBase addr →
      getMemoryB32 s (leafBase (lastByte addr size)) pR = getMemoryB32 t (leafBase (lastByte addr size)) qR) :
    loadMem s addr size signed pL pR = loadMem t addr size signed qL qR := by
  rw [loadMem, loadMem, hL]
  by_cases hone : leafBase (lastByte addr size) = leafBase addr
  · simp only [if_pos hone]
  · simp only [if_neg hone, hR hone]

theorem lastByte_eq (addr : Word) (size : Nat) : lastByte addr size = addr + (BitVec.ofNat 64 size - 1) :=
  add_sub_assoc addr _ 1

/-- Honest blocks give what the honest host gives. -/
theorem loadMem_honestBlocks {size pL pR : Nat} (signed : Bool) (hin : s.inputs = calldata :: rest) (hc : Committed s)
    (h1 : 1 ≤ size) (hs : size ≤ 32) (hL : HonestBlock calldata pL s.mem addr)
    (hR : leafBase (lastByte addr size) ≠ leafBase addr → HonestBlock calldata pR s.mem (lastByte addr size)) :
    loadMem s addr size signed pL pR =
      .next (if signed then sext (8 * size) (s.mem.load addr size) else s.mem.load addr size) := by
  have hhost (a : Word) :
      getMemoryB32 { s with inputs := [] } (leafBase a) dataLeft = .next (leafAt s.mem (a.toNat / 32)) :=
    getMemoryB32_honest _ a dataLeft rfl hc dataLeft_ne_noProof
  rw [loadMem_congr (t := { s with inputs := [] }) (qL := dataLeft) (qR := dataLeft) signed
    (by rw [getMemoryB32_honestBlock hin hc hL, hhost])
    fun hone => by rw [getMemoryB32_honestBlock hin hc (hR hone), hhost]]
  exact loadMem_honest _ addr size signed _ _ rfl hc h1 hs dataLeft_ne_noProof (.inl dataLeft_ne_noProof)

/-- The left patch, then the right patch through a block that is honest for the memory between (R378). -/
theorem storeMem_honestBlocks {size pL pR : Nat} (value : Nat) (hin : s.inputs = calldata :: rest) (hc : Committed s)
    (h1 : 1 ≤ size) (hs : size ≤ 32) (hL : HonestBlock calldata pL s.mem addr)
    (hR : leafBase (lastByte addr size) ≠ leafBase addr → HonestBlock calldata pR
      (s.mem.store addr (valueByte value) (32 - leafOffset addr)) (lastByte addr size)) :
    storeMem s addr size value pL pR = .next { s with
      mem := s.mem.store addr (valueByte value) size
      root := .digest (merkleRoot (s.mem.store addr (valueByte value) size)) } := by
  have hoff := leafOffset_lt addr
  simp only [storeMem]
  rw [patchMemory_honestBlock hin hc hL hoff (by omega), leafBase_add_leafOffset, andThen_next]
  by_cases hone : leafBase (lastByte addr size) = leafBase addr
  · have hfits := (one_leaf_iff addr size h1 hs).mp hone
    rw [if_pos hone, Nat.min_eq_left (by omega)]
  · have hcross := (one_leaf_iff addr size h1 hs).not.mp hone
    rw [if_neg hone, Nat.min_eq_right (by omega), patchMemory_honestBlock
      (s := { s with mem := _, root := .digest (merkleRoot _) }) hin rfl (hR hone) (by decide) (by omega),
      right_leaf addr size h1 hs hone, BitVec.add_zero, store_append,
      show 32 - leafOffset addr + (size - (32 - leafOffset addr)) = size by omega]

end

/-- Settles O16: an access that crosses a leaf uses both blocks. -/
theorem honestLiteralAccess : Obligations.HonestLiteralAccess := by
  intro s calldata rest addr size pL pR hin hc h1 hs hL
  have hcross (hone : leafBase (lastByte addr size) ≠ leafBase addr) : 32 < addr.toNat % 32 + size := by
    rw [← leafOffset_eq]
    exact not_le.mp ((one_leaf_iff addr size h1 hs).not.mp hone)
  refine ⟨fun signed _ hR => loadMem_honestBlocks signed hin hc h1 hs hL fun hone => ?_,
    fun value hR => storeMem_honestBlocks value hin hc h1 hs hL fun hone => ?_⟩
  · exact lastByte_eq addr size ▸ hR (hcross hone)
  · exact lastByte_eq addr size ▸ leafOffset_eq addr ▸ hR (hcross hone)

/-! ### A load after a store -/

/-- Settles O17: the bytes stored are read back, together and one by one. -/
theorem storeThenLoad : Obligations.StoreThenLoad := by
  intro s s' addr size value pL pR hh h1 h8 hL hR hstore
  rw [storeMem_honest s addr size value pL pR hh.1 hh.2 h1 (by omega) hL hR, Host.Outcome.next.injEq] at hstore
  subst hstore
  have hload (a : Word) (n : Nat) (hn1 : 1 ≤ n) (hn8 : n ≤ 8) :
      loadMem (commitMemory s (s.mem.store addr (valueByte value) size)) a n false pL pR =
        .next ((s.mem.store addr (valueByte value) size).load a n) :=
    loadMem_honest _ a n false pL pR hh.1 (commitMemory_memRoot s _) hn1 (by omega) hL (.inl hR)
  refine ⟨?_, fun k hk => ?_⟩
  · rw [hload addr size h1 h8, load_store _ _ _ _ h8, Nat.pow_mul]
  · have hbyte : (s.mem.store addr (valueByte value) size).read (byteAddress (addr + BitVec.ofNat 64 k) 0) =
        valueByte value k := by
      rw [byteAddress, BitVec.add_zero]
      exact read_store_same _ _ _ _ _ (by omega) hk
    rw [hload _ 1 (by decide) (by decide), Memory.load, leValue, leValue, hbyte, valueByte, BitVec.toNat_ofNat]
    rfl

end Sys2Proof.Machine

/-! Calldata (10_state.md R36, R41, R46): the record it brings, and the four selector bytes that nothing reads. -/

namespace Sys2Proof.Machine

/-! ### Bytes behind the selector -/

theorem getD_drop {α : Type} (bs : List α) (n k : Nat) (d : α) : (bs.drop n).getD k d = bs.getD (n + k) d := by
  simp [List.getD_eq_getElem?_getD]

theorem wordAt_drop (bs : List Byte) (n k : Nat) : wordAt (bs.drop n) k = wordAt bs (n + k) := by
  simp only [wordAt, getD_drop, Nat.add_assoc]

theorem bytes32At_drop (bs : List Byte) (n k : Nat) : bytes32At (bs.drop n) k = bytes32At bs (n + k) := by
  simp only [bytes32At, getD_drop, Nat.add_assoc]

/-! ### Delivery -/

section
variable {s : State} {calldata : List Byte} {rest : List (List Byte)}

theorem deliverInput_short (hin : s.inputs = calldata :: rest) (hlen : calldata.length < 366) :
    deliverInput s = .refused .shortCalldata := by
  simp only [deliverInput, hin]
  exact if_pos hlen

theorem deliverInput_long (hin : s.inputs = calldata :: rest) (hlen : 366 ≤ calldata.length) :
    deliverInput s = .next (s.withRecord (Record.ofBytes (calldata.drop 4))) := by
  simp only [deliverInput, hin]
  exact if_neg (not_lt.mpr hlen)

theorem step_short (hin : s.inputs = calldata :: rest) (hlen : calldata.length < 366) :
    step s = .refused .shortCalldata := by
  rw [step, deliverInput_short hin hlen, andThen_refused]

end

/-- Settles O7: the fields of the record that calldata brings are read four bytes further on. -/
theorem calldataDelivers : Obligations.CalldataDelivers := by
  refine ⟨fun s hin => ⟨fun hh => ?_, fun h hh => ?_⟩, fun s calldata rest hin => ⟨step_short hin, fun hlen =>
    ⟨_, deliverInput_long hin hlen, rfl, ?_⟩⟩⟩
  · simp only [deliverInput, hin, hh]
  · simp only [deliverInput, hin, hh]
  · have hbyte (k : Nat) (hk : 4 + k < 366) : calldata[4 + k]? = some ((calldata.drop 4).getD k 0) := by
      rw [getD_drop, List.getD_eq_getElem?_getD, List.getElem?_eq_getElem (by omega), Option.getD_some]
    refine ⟨bytes32At_drop _ _ _, bytes32At_drop _ _ _, wordAt_drop _ _ _, wordAt_drop _ _ _, hbyte 80 (by decide),
      hbyte 81 (by decide), wordAt_drop _ _ _, wordAt_drop _ _ _, wordAt_drop _ _ _, fun i hi => ?_⟩
    exact (Vector.getElem_ofFn _).trans ((wordAt_drop _ _ _).trans (congrArg _ (Nat.add_assoc 4 106 _).symm))

/-! ### The selector -/

/-- No proof block lies in the first four bytes. -/
theorem proofBlock_congr {c c' : List Byte} (h : c.drop 4 = c'.drop 4) : proofBlock c = proofBlock c' := by
  have hlen := congrArg List.length h
  rw [List.length_drop, List.length_drop] at hlen
  have hword (k : Nat) (hk : 4 ≤ k) : bytes32At c k = bytes32At c' k := by
    rw [← Nat.add_sub_cancel' hk, ← bytes32At_drop, h, bytes32At_drop]
  funext p
  have hstart : 366 ≤ blockStart p := Nat.le_add_right _ _
  by_cases hp : p = noProof
  · rw [hp, proofBlock_noProof, proofBlock_noProof]
  by_cases hmissing : c.length < blockStart p + 32 * 60
  · rw [proofBlock_missing hp hmissing, proofBlock_missing hp (by omega)]
  · rw [proofBlock_present hp (not_lt.mp hmissing), proofBlock_present hp (by omega), hword _ (by omega)]
    refine congrArg (fun siblings => Host.Outcome.next (_, siblings)) (List.map_congr_left fun i _ => hword _ (by omega))

/-- After delivery a step reads of calldata its proof blocks, and at the end uses it up. -/
theorem step_of_sameBlocks {s s' s1 : State} {inputs : List (List Byte)} (h : deliverInput s = .next s1)
    (h' : deliverInput s' = .next { s1 with inputs := inputs }) (hb : SameBlocks inputs s1.inputs)
    (htail : inputs.tail = s1.inputs.tail) : step s' = step s := by
  have hout (t : State) (ht : t.inputs = s1.inputs) : deliverOutput { t with inputs := inputs } = deliverOutput t := by
    rw [deliverOutput, deliverOutput, htail, ht]
    rfl
  have hfetch : fetch { s1 with inputs := inputs } = fetch s1 := by
    rw [fetch, fetch]
    exact congrArg (andThen · _) (loadMem_withHost (u := { hostFields s1 with inputs := inputs }) hb _ _ _ _ _)
  have hexec (i : Instr) : exec i { s1 with inputs := inputs } = mapNext ({ · with inputs := inputs }) (exec i s1) :=
    exec_of_withHost_eq (u := { hostFields s1 with inputs := inputs }) hb (.inl rfl) fun t ht => by
      rw [← ht]
      rfl
  have hrun : (andThen (fetch { s1 with inputs := inputs }) fun w =>
      andThen (exec (decode w) { s1 with inputs := inputs }) fun s2 => .next (deliverOutput s2)) =
        andThen (fetch s1) fun w => andThen (exec (decode w) s1) fun s2 => .next (deliverOutput s2) := by
    rw [hfetch]
    refine andThen_congr fun w _ => ?_
    rw [hexec, andThen_mapNext]
    exact andThen_congr fun t ht => congrArg _ (hout t (congrArg HostFields.inputs (exec_hostFields ht)))
  rw [step, step, h, h', andThen_next, andThen_next, hout s1 rfl, hrun]
  rfl

/-- Settles O8: the same record is delivered, the same proof blocks are read, and the calldata is used up. -/
theorem selectorIsNotRead : Obligations.SelectorIsNotRead := by
  intro s c c' rest h
  have hlen := congrArg List.length h
  rw [List.length_drop, List.length_drop] at hlen
  by_cases hshort : c.length < 366
  · rw [step_short rfl hshort, step_short rfl (show c'.length < 366 by omega)]
  · refine (step_of_sameBlocks (inputs := c' :: rest) (deliverInput_long rfl (not_lt.mp hshort)) ?_
      (.inr ⟨_, _, _, _, rfl, rfl, (proofBlock_congr h).symm⟩) rfl).symm
    rw [deliverInput_long rfl (show 366 ≤ c'.length by omega), h]
    rfl

end Sys2Proof.Machine
